-- ==== Sys2Proof/Word.lean ====
section
/-! DEFINITION. The plain data widths of the block (00_scope.md R8, R9). -/

namespace Sys2Proof

/-- A byte is 8 bits (00_scope.md R8). -/
abbrev Byte := BitVec 8

/-- One event word (30_encoding.md R73). -/
abbrev EventWord := BitVec 64

/-- A 16-bit operand field of the event word (30_encoding.md R77, R78). It holds an axis reading, a centre or a
deadzone, of which the low `AXIS_W` bits are used. -/
abbrev AxisValue := BitVec 16

end Sys2Proof
end

