-- ==== Sys2Proof/Config.lean ====
section
/-! DEFINITION. The parameters of the block (00_scope.md R6, R7) and its free values (R11 `draw`). -/

namespace Sys2Proof

/-- `AXIS_W`, the width of an axis reading, a centre and the deadzone: OPEN in 12..16 (00_scope.md R6, D3, D4). -/
inductive AxisWidth where
  | w12 | w13 | w14 | w15 | w16
deriving DecidableEq, Repr

/-- The number of bits that `AXIS_W` names. -/
def AxisWidth.bits : AxisWidth → Nat
  | .w12 => 12
  | .w13 => 13
  | .w14 => 14
  | .w15 => 15
  | .w16 => 16

/-- A value lies in `0 .. 2^AXIS_W - 1` (30_encoding.md R77, R78, R80). -/
def AxisWidth.admits (aw : AxisWidth) (v : AxisValue) : Bool :=
  decide (v.toNat < 2 ^ aw.bits)

/-- `TX_TRIGGER`, the transmit policy (00_scope.md R6, 42_transmit_gate.md R152, R153). -/
inductive TxTrigger where
  /-- A frame on every tick at which the condition holds (R152). -/
  | level
  /-- A frame only on entry into the condition (R153). -/
  | edge
deriving DecidableEq, Repr

/-- The parameters that an integrator fixes for a whole run (00_scope.md R6, R7). No event writes them. -/
structure Config where
  /-- `AXIS_W`. -/
  axisW : AxisWidth
  /-- `TX_TRIGGER`. -/
  txTrigger : TxTrigger
  /-- `CAL_CX_RST`. -/
  calCxRst : AxisValue
  /-- `CAL_CY_RST`. -/
  calCyRst : AxisValue
  /-- `CAL_DZ_RST`. -/
  calDzRst : AxisValue
deriving DecidableEq, Repr

/-- Each calibration reset value lies in `0 .. 2^AXIS_W - 1` (00_scope.md R6). -/
def Config.wf (c : Config) : Bool :=
  c.axisW.admits c.calCxRst && c.axisW.admits c.calCyRst && c.axisW.admits c.calDzRst

/-- The configuration of `State.reset`: `AXIS_W = 12` and `TX_TRIGGER = LEVEL` are the defaults that 00_scope.md R6
states. DESIGN CHOICE (log 5): the spec gives no calibration reset value, and zero stands here. Unsafe: a claim about the
run from `State.reset` may not rest on these zeros. -/
def Config.default : Config :=
  { axisW := .w12, txTrigger := .level, calCxRst := 0, calCyRst := 0, calDzRst := 0 }

/-- `draw(8)` of 00_scope.md R11: the value of the `n`-th draw. It has no body, so nothing can be proved of it but what
holds of every byte. DESIGN CHOICE (log 7). Safe. -/
opaque Config.drawByte : Nat → Byte

end Sys2Proof
end

