-- ==== Sys2Proof/Syntax.lean ====
section
/-! DEFINITION. The ten events of spec/opcode_table.json, and the reasons for which a word is no event. -/

namespace Sys2Proof

/-- The calibration registers by their `SEL` number (10_state.md R36). Number 3 is reserved and names none. -/
inductive CalReg where
  /-- `SEL = 0`, `cal_cx`. -/
  | cx
  /-- `SEL = 1`, `cal_cy`. -/
  | cy
  /-- `SEL = 2`, `cal_dz`. -/
  | dz
deriving DecidableEq, Repr

/-- One event of the block with its operands (30_encoding.md R74 to R79). `btn` is the button level: true is released
(R77). -/
inductive Instr where
  /-- RX_BYTE, `D` (R75, R100). -/
  | rxByte (d : Byte)
  /-- STATUS_READ (R79, R103). -/
  | statusRead
  /-- SNAP_READ, `IDX` (R76, R104). -/
  | snapRead (idx : BitVec 7)
  /-- CMD_ACK (R79, R105). -/
  | cmdAck
  /-- TICK, `X`, `Y`, `BTN` (R77, R150). -/
  | tick (x y : AxisValue) (btn : Bool)
  /-- CLASSIFY, `X`, `Y`, `BTN` (R77, R132). -/
  | classify (x y : AxisValue) (btn : Bool)
  /-- TX_ACCEPT (R79, R151). -/
  | txAccept
  /-- CAL_WRITE, `SEL`, `V` (R78, R180). -/
  | calWrite (sel : CalReg) (v : AxisValue)
  /-- HALT (R79, R181). -/
  | halt
  /-- RESET (R79, R182). -/
  | reset
deriving DecidableEq, Repr

/-- Why a word spells no event, in the order of 30_encoding.md R80. -/
inductive RefuseReason where
  /-- `OP` is 0x0 or 0xB..0xF. -/
  | reservedOp
  /-- A bit outside the named fields of its `OP` is 1. -/
  | nonzeroReservedBits
  /-- `IDX > 98` in SNAP_READ. -/
  | indexRange
  /-- `X` or `Y` at or above `2^AXIS_W` in TICK or CLASSIFY. -/
  | sampleRange
  /-- `SEL = 3` in CAL_WRITE. -/
  | reservedSel
  /-- `V >= 2^AXIS_W` in CAL_WRITE. -/
  | valueRange
deriving DecidableEq, Repr

/-- The code that 60_exceptions.md R201 gives each reason. -/
def RefuseReason.code : RefuseReason → Nat
  | .reservedOp => 1
  | .nonzeroReservedBits => 2
  | .indexRange => 3
  | .sampleRange => 4
  | .reservedSel => 5
  | .valueRange => 6

end Sys2Proof
end

