-- ==== Sys2Proof/WellFormed.lean ====
section
/-! DEFINITION. Which terms of `Instr` are events of the block: the operand ranges of 30_encoding.md R76, R77, R78. -/

namespace Sys2Proof

/-- The operands of an event lie in the ranges its format admits, at the width `aw` (30_encoding.md R80). -/
def Instr.wellFormed (aw : AxisWidth) : Instr → Bool
  | .rxByte _ => true
  | .statusRead => true
  | .snapRead idx => decide (idx.toNat ≤ 98)
  | .cmdAck => true
  | .tick x y _ => aw.admits x && aw.admits y
  | .classify x y _ => aw.admits x && aw.admits y
  | .txAccept => true
  | .calWrite _ v => aw.admits v
  | .halt => true
  | .reset => true

end Sys2Proof
end

