-- ==== Sys2Proof/Decode.lean ====
section
/-! DEFINITION. The decoder of 30_encoding.md R82, total on every 64-bit word, and after it the encoder of R75 to R79. -/

namespace Sys2Proof

/-- What a word spells: an event, or nothing, with the first reason of R80 that applies. -/
inductive Decoded where
  | event (i : Instr)
  | illegal (r : RefuseReason)
deriving DecidableEq, Repr

/-- Field `OP`, bits 63:60 (R73). -/
def opField (w : EventWord) : BitVec 4 := w.extractLsb' 60 4

/-- The register that a `SEL` field numbers (10_state.md R36); 3 is reserved. -/
def calRegOfSel (sel : BitVec 2) : Option CalReg :=
  match sel.toNat with
  | 0 => some .cx
  | 1 => some .cy
  | 2 => some .dz
  | _ => none

/-- R80's second condition: every bit outside the named fields of the `OP` is 0, given the row's `match` and `mask`
(R75 to R79); only then are the fields read. -/
def reservedClear (w mask pat : EventWord) (fields : Decoded) : Decoded :=
  if w &&& mask = pat then fields else .illegal .nonzeroReservedBits

/-- SNAP_READ's operand and its range check (R76). -/
def snapFields (w : EventWord) : Decoded :=
  let idx : BitVec 7 := w.extractLsb' 0 7
  if idx.toNat ≤ 98 then .event (.snapRead idx) else .illegal .indexRange

/-- The sample of TICK and CLASSIFY and its range check (R77): `X` in 15:0, `Y` in 31:16, `BTN` in bit 32. -/
def sampleFields (aw : AxisWidth) (w : EventWord) (ctor : AxisValue → AxisValue → Bool → Instr) : Decoded :=
  let x : AxisValue := w.extractLsb' 0 16
  let y : AxisValue := w.extractLsb' 16 16
  if aw.admits x && aw.admits y then .event (ctor x y (w.getLsbD 32)) else .illegal .sampleRange

/-- CAL_WRITE's operands (R78): `V` in 15:0, `SEL` in 33:32. The reserved `SEL` is checked before the range of `V`
(R80's order). -/
def calFields (aw : AxisWidth) (w : EventWord) : Decoded :=
  let v : AxisValue := w.extractLsb' 0 16
  match calRegOfSel (w.extractLsb' 32 2) with
  | none => .illegal .reservedSel
  | some sel => if aw.admits v then .event (.calWrite sel v) else .illegal .valueRange

/-- The decoder (R82): `OP`, then the reserved bits, then the operand ranges. It reads no state but `AXIS_W`. -/
def decode (aw : AxisWidth) (w : EventWord) : Decoded :=
  match (opField w).toNat with
  | 0x1 => reservedClear w 0xFFFFFFFFFFFFFF00 0x1000000000000000 (.event (.rxByte (w.extractLsb' 0 8)))
  | 0x2 => reservedClear w 0xFFFFFFFFFFFFFFFF 0x2000000000000000 (.event .statusRead)
  | 0x3 => reservedClear w 0xFFFFFFFFFFFFFF80 0x3000000000000000 (snapFields w)
  | 0x4 => reservedClear w 0xFFFFFFFFFFFFFFFF 0x4000000000000000 (.event .cmdAck)
  | 0x5 => reservedClear w 0xFFFFFFFE00000000 0x5000000000000000 (sampleFields aw w .tick)
  | 0x6 => reservedClear w 0xFFFFFFFE00000000 0x6000000000000000 (sampleFields aw w .classify)
  | 0x7 => reservedClear w 0xFFFFFFFFFFFFFFFF 0x7000000000000000 (.event .txAccept)
  | 0x8 => reservedClear w 0xFFFFFFFCFFFF0000 0x8000000000000000 (calFields aw w)
  | 0x9 => reservedClear w 0xFFFFFFFFFFFFFFFF 0x9000000000000000 (.event .halt)
  | 0xA => reservedClear w 0xFFFFFFFFFFFFFFFF 0xA000000000000000 (.event .reset)
  | _ => .illegal .reservedOp

/-- The event word that the lowest `nbits` bits of `w` spell, all its other bits 0. -/
def wordOfBits (nbits w : Nat) : EventWord := BitVec.ofNat 64 (w % 2 ^ nbits)

/-- What the decoder reads from a word of the opcode table, at the default width `AXIS_W = 12` (00_scope.md R6;
log 12). -/
def decodeTableWord (nbits w : Nat) : Option Instr :=
  match decode Config.default.axisW (wordOfBits nbits w) with
  | .event i => some i
  | .illegal _ => none

/-- The `SEL` number of a calibration register (10_state.md R36). -/
def selOfCalReg : CalReg → BitVec 2
  | .cx => 0
  | .cy => 1
  | .dz => 2

/-- The event word of an event, field by field from the most significant end (R75 to R79). -/
def encode : Instr → EventWord
  | .rxByte d => 0x1#4 ++ 0#52 ++ d
  | .statusRead => 0x2#4 ++ 0#60
  | .snapRead idx => 0x3#4 ++ 0#53 ++ idx
  | .cmdAck => 0x4#4 ++ 0#60
  | .tick x y btn => 0x5#4 ++ 0#27 ++ BitVec.ofBool btn ++ y ++ x
  | .classify x y btn => 0x6#4 ++ 0#27 ++ BitVec.ofBool btn ++ y ++ x
  | .txAccept => 0x7#4 ++ 0#60
  | .calWrite sel v => 0x8#4 ++ 0#26 ++ selOfCalReg sel ++ 0#16 ++ v
  | .halt => 0x9#4 ++ 0#60
  | .reset => 0xA#4 ++ 0#60

end Sys2Proof
end

