-- ==== Sys2Proof/Machine/State.lean ====
section
/-! DEFINITION. The state of the block (10_state.md R21), the model's own fields beside it, and the state after reset. -/

namespace Sys2Proof.Machine

open Sys2Proof

/-- Direction, "enumeration {Neutral, Up, Down, Left, Right}" (00_scope.md section 6). -/
inductive Direction where
  | neutral | up | down | left | right
deriving DecidableEq, Repr

/-- The agents that issue events (10_state.md R20). -/
inductive Agent where
  | rx | consumer | ticker | probe | link | host
deriving DecidableEq, Repr

/-- The two byte stores (20_memory.md R50). -/
inductive ByteStore where
  /-- `buf`, 100 bytes. -/
  | line
  /-- `snap`, 99 bytes. -/
  | snapshot
deriving DecidableEq, Repr

/-- Why an event is held (60_exceptions.md R201). -/
inductive HoldReason where
  /-- TICK with `tx_q != []`. -/
  | txBusy
  /-- TX_ACCEPT with `tx_q = []`. -/
  | txEmpty
deriving DecidableEq, Repr

/-- The outcome of one event attempted, as its agent receives it (00_scope.md R11, 60_exceptions.md R201). -/
inductive Reply where
  /-- No event has been attempted yet. -/
  | noReply
  /-- `return` without a value. -/
  | done
  /-- `return v` of STATUS_READ (R103). -/
  | status (v : BitVec 16)
  /-- `return v` of SNAP_READ and TX_ACCEPT (R104, R151). -/
  | byte (v : Byte)
  /-- `return v` of CLASSIFY (R132, R81). -/
  | classified (v : BitVec 4)
  /-- `hold`: the event is not enabled; its agent waits (R208). -/
  | hold (r : HoldReason)
  /-- `stuck(Halted)`: only RESET can enable the event (R206). -/
  | stuck
  /-- `Refused(reason)`, with the event word (R207). -/
  | refused (r : RefuseReason) (w : EventWord)
deriving DecidableEq, Repr

/-- A byte store: the bytes that hold a known value, each with its index, indices strictly rising. An index that is not
listed holds an undetermined byte (`draw(8)`): reading it gives a free value (log 6). -/
abbrev Memory := List Host.Cell

/-- The event words that each agent has issued and the block has not yet taken, oldest first (log 1). -/
structure Inbox where
  rx : List EventWord
  consumer : List EventWord
  ticker : List EventWord
  probe : List EventWord
  link : List EventWord
  host : List EventWord
deriving DecidableEq, Repr

/-- The fourteen elements of 10_state.md R21, and the model's own five fields. -/
structure State where
  /-- `buf[0..99]`, the framer's line buffer (R22). -/
  buf : Memory
  /-- `cursor`, the append position, 0..98 between events (R23). -/
  cursor : Nat
  /-- `snap[0..98]`, the latest completed line (R24). -/
  snap : Memory
  /-- `snap_len`, its length, 0..99 (R24). -/
  snapLen : Nat
  /-- `cmd_ready` (R25). -/
  cmdReady : Bool
  /-- `cal_cx` (R27), `AXIS_W` bits. -/
  calCx : AxisValue
  /-- `cal_cy` (R27), `AXIS_W` bits. -/
  calCy : AxisValue
  /-- `cal_dz` (R27), `AXIS_W` bits. -/
  calDz : AxisValue
  /-- `tx_q`, the bytes not yet taken by the link, in send order (R28). -/
  txQ : List Byte
  /-- `prev_dir` (R29). -/
  prevDir : Direction
  /-- `prev_pressed` (R29). -/
  prevPressed : Bool
  /-- `halted` (R30). -/
  halted : Bool
  /-- `overrun`, bookkeeping (R26). -/
  overrun : Bool
  /-- `refused`, bookkeeping (R31). -/
  refused : Bool
  /-- The model's own: the parameters, fixed for a run (00_scope.md R6, R7; log 4). -/
  cfg : Config
  /-- The model's own: how many `draw(8)` values have been taken (log 7). -/
  draws : Nat
  /-- The model's own: the outcome of the latest event attempted (log 9). -/
  reply : Reply
  /-- The model's own: the words issued and not yet taken (log 1). -/
  inbox : Inbox
  /-- The model's own: which agents move next, the next one first (log 1). -/
  turns : List Agent
deriving DecidableEq, Repr

/-- What stops the machine. The block raises no exception and has no trap (60_exceptions.md R200); the one fault is the
model's guard on its byte stores. -/
inductive Fault where
  /-- Raised by the store operations of Machine/Ops.lean for an index the store does not have (`buf` 0..99, `snap`
  0..98; 20_memory.md R50). No state that meets the invariant of Safety.lean raises it. Safe (log 8). -/
  | noSuchByte (store : ByteStore) (index : Nat)
deriving DecidableEq, Repr

/-- What the model gives no meaning to. -/
inductive Refusal where
  /-- Raised by an arm of `exec` for an event that has no meaning yet; no arm is such an arm. Safe. -/
  | notModelled (mnemonic : String)
deriving DecidableEq, Repr

/-- The state after power-on (R21's reset column; 70_reset_and_hazards.md R230, R231), with `Config.default` for its
parameters and no event issued. The undetermined bytes of `buf` and `snap` are unlisted (log 6). The calibration
registers hold the reset values of `Config.default`: DESIGN CHOICE (log 5), unsafe. -/
def State.reset : State :=
  { buf := []
    cursor := 0
    snap := []
    snapLen := 0
    cmdReady := false
    calCx := Config.default.calCxRst
    calCy := Config.default.calCyRst
    calDz := Config.default.calDzRst
    txQ := []
    prevDir := .neutral
    prevPressed := false
    halted := false
    overrun := false
    refused := false
    cfg := Config.default
    draws := 0
    reply := .noReply
    inbox := { rx := [], consumer := [], ticker := [], probe := [], link := [], host := [] }
    turns := [] }

end Sys2Proof.Machine
end

