-- ==== Sys2Proof/Machine/Operands.lean ====
section
/-! DEFINITION. The fixed constants of 00_scope.md R6 and everything an event computes from its operands: the
classification (41_classifier.md R130, R131), the frames (30_encoding.md R71) and the numeric codes (R72, R201). -/

namespace Sys2Proof.Machine

open Sys2Proof

/-- `CAP`, the capacity of `buf` (R6). -/
abbrev capacity : Nat := 100

/-- `MAXLEN = CAP - 1`, the largest snapshot length and the number of bytes of `snap` (R6, R50). -/
abbrev maxLen : Nat := 99

/-- `TERM`, the line terminator (R6). -/
abbrev term : Byte := 0x0A

/-- `CR` (R6, R71). -/
abbrev crByte : Byte := 0x0D

/-- `LF` (R6, R71). -/
abbrev lfByte : Byte := 0x0A

/-- `CODE_B`, the code byte of a button frame (R71). -/
abbrev codeB : Byte := 0x42

/-- The classification function (R130), on mathematical integers (00_scope.md R9). The first test that holds decides. -/
def direction (x y cx cy dz : AxisValue) : Direction :=
  let (x, y) := ((x.toNat : Int), (y.toNat : Int))
  let (cx, cy, dz) := ((cx.toNat : Int), (cy.toNat : Int), (dz.toNat : Int))
  if x > cx + dz then .right
  else if x < cx - dz then .left
  else if y > cy + dz then .up
  else if y < cy - dz then .down
  else .neutral

/-- The pressed bit (R131): the level is active low, true is released. -/
def pressed (btn : Bool) : Bool := !btn

/-- The 3-bit direction value (R72). -/
def dirValue : Direction → BitVec 3
  | .neutral => 0
  | .up => 1
  | .down => 2
  | .left => 3
  | .right => 4

/-- CLASSIFY's result word (R81): bit 3 is `pressed`, bits 2:0 the direction value. -/
def classifyWord (d : Direction) (p : Bool) : BitVec 4 := BitVec.ofBool p ++ dirValue d

/-- A 3-byte frame: a code byte, `CR`, `LF` (R71). -/
def frame (code : Byte) : List Byte := [code, crByte, lfByte]

/-- The direction frame (R71). Neutral has no code and no frame. -/
def dirFrame : Direction → List Byte
  | .neutral => []
  | .up => frame 0x55
  | .down => frame 0x44
  | .left => frame 0x4C
  | .right => frame 0x52

/-- The button frame (R71). -/
def buttonFrame : List Byte := frame codeB

/-- The code a model records for an outcome other than `return` (60_exceptions.md R201). -/
def Reply.code : Reply → Option Nat
  | .noReply => none
  | .done => none
  | .status _ => none
  | .byte _ => none
  | .classified _ => none
  | .hold .txBusy => some 32
  | .hold .txEmpty => some 33
  | .stuck => some 16
  | .refused r _ => some r.code

/-- The outcome is one at which the event has no step and its word stays with its agent. For `hold` that is the agent's
wait of 00_scope.md R11 (log 2). For `stuck` R11 names no wait: that the word stays, and with it that HOST's stuck HALT or
CAL_WRITE is still offered before a RESET that HOST issued after it, is a DESIGN CHOICE (log 17). -/
def Reply.waits : Reply → Bool
  | .noReply => false
  | .done => false
  | .status _ => false
  | .byte _ => false
  | .classified _ => false
  | .hold _ => true
  | .stuck => true
  | .refused _ _ => false

end Sys2Proof.Machine

namespace Sys2Proof

open Sys2Proof.Machine

/-- The agent that issues an event (10_state.md R20). The block does not check it (60_exceptions.md R213). -/
def Instr.agent : Instr → Agent
  | .rxByte _ => .rx
  | .statusRead => .consumer
  | .snapRead _ => .consumer
  | .cmdAck => .consumer
  | .tick _ _ _ => .ticker
  | .classify _ _ _ => .probe
  | .txAccept => .link
  | .calWrite _ _ => .host
  | .halt => .host
  | .reset => .host

end Sys2Proof
end

