-- ==== Sys2Proof/Machine/Flags.lean ====
section
/-! DEFINITION. The conditions and flags the events compute: the STATUS word (10_state.md R35), the completion condition
and the overrun mark (40_framer.md R100, R102), and what a tick sends (42_transmit_gate.md R152, R153). -/

namespace Sys2Proof.Machine

open Sys2Proof

/-- STATUS (R35): bit 15 zero, `SNAP_LEN` in 14:8, 7:2 zero, `TX_BUSY` in bit 1, `CMD_READY` in bit 0. -/
def statusWord (snapLen : Nat) (txBusy cmdReady : Bool) : BitVec 16 :=
  0#1 ++ BitVec.ofNat 7 snapLen ++ 0#6 ++ BitVec.ofBool txBusy ++ BitVec.ofBool cmdReady

/-- The line is complete (R100): the byte is `TERM`, or the cursor, already advanced, has reached `MAXLEN`. -/
def lineComplete (d : Byte) (cursor : Nat) : Bool :=
  d == term || cursor == maxLen

/-- The `overrun` mark after a line completion (R102). -/
def overrunAfter (cmdReady overrun : Bool) : Bool := cmdReady || overrun

/-- A tick sends a direction frame (R152 for LEVEL, R153 for EDGE). -/
def sendsDirection (trigger : TxTrigger) (prevDir d : Direction) : Bool :=
  match trigger with
  | .level => d != .neutral
  | .edge => d != .neutral && d != prevDir

/-- A tick sends a button frame (R152 for LEVEL, R153 for EDGE). -/
def sendsButton (trigger : TxTrigger) (prevPressed p : Bool) : Bool :=
  match trigger with
  | .level => p
  | .edge => p && !prevPressed

end Sys2Proof.Machine
end

