-- ==== Sys2Proof/Machine/Ops.lean ====
section
/-! DEFINITION. The shared operations: the byte stores (20_memory.md R50), the outcomes of an event (00_scope.md R11,
60_exceptions.md R206, R207), the line completion (40_framer.md R101), the frames of a tick, and the agents' turns. -/

namespace Sys2Proof.Machine

open Sys2Proof

/-! ### Byte stores -/

/-- The byte at an index, or nothing where the byte is undetermined. -/
def Memory.read : Memory → Nat → Option Byte
  | [], _ => none
  | (k, b) :: m, a => if k = a then some b else Memory.read m a

/-- Store a byte at an index, keeping the indices rising. -/
def Memory.write : Memory → Nat → Byte → Memory
  | [], a, b => [(a, b)]
  | (k, c) :: m, a, b =>
    if a < k then (a, b) :: (k, c) :: m
    else if a = k then (a, b) :: m
    else (k, c) :: Memory.write m a b

/-- `for i in 0 .. n-1: dst[i] <- src[i]` (R101). A byte undetermined in `src` is undetermined afterwards. -/
def Memory.copyFirst (n : Nat) (src dst : Memory) : Memory :=
  src.filter (fun c => decide (c.1 < n)) ++ dst.filter (fun c => decide (n ≤ c.1))

/-- The indices rise strictly, from `lo` on, and stay below `cap`. -/
def Memory.wfFrom (lo cap : Nat) : Memory → Bool
  | [] => true
  | (k, _) :: m => decide (lo ≤ k) && decide (k < cap) && Memory.wfFrom (k + 1) cap m

/-- The canonical form of a store of `cap` bytes: indices strictly rising and below `cap`. Every entry differs from what an
unlisted index reads as, since an unlisted index has no determined byte. -/
def Memory.wf (cap : Nat) (m : Memory) : Bool := Memory.wfFrom 0 cap m

/-! ### Outcomes of an event -/

/-- Give the issuing agent an outcome (R11). -/
def State.answer (s : State) (r : Reply) : State := { s with reply := r }

/-- The next `draw(8)` (R11): a free value. -/
def State.drawnByte (s : State) : Byte := Config.drawByte s.draws

/-- Return a drawn byte (R104): each draw takes a fresh value (93_implementation_defined.md I1). -/
def State.answerDraw (s : State) : State :=
  { s with draws := s.draws + 1, reply := .byte s.drawnByte }

/-- `if halted = 1: stuck` (R206), the first line of every event but RESET. -/
def whenRunning (s : State) (k : Host.Outcome State Fault Refusal) : Host.Outcome State Fault Refusal :=
  if s.halted then .next (s.answer .stuck) else k

/-- Go on from the next state of an operation; a stop stays a stop. -/
def andThen (o : Host.Outcome State Fault Refusal) (k : State → Host.Outcome State Fault Refusal) :
    Host.Outcome State Fault Refusal :=
  match o with
  | .next s => k s
  | .fault f => .fault f
  | .refused r => .refused r

/-- A refused word (R207): the mark is set, the word and its reason are recorded, and nothing else changes. -/
def State.refuse (s : State) (r : RefuseReason) (w : EventWord) : State :=
  { s with refused := true, reply := .refused r w }

/-! ### The framer -/

/-- `buf[i] <- b` (R22); an index the buffer does not have is a fault (log 8). -/
def State.storeLine (s : State) (i : Nat) (b : Byte) : Host.Outcome State Fault Refusal :=
  if i < capacity then .next { s with buf := s.buf.write i b } else .fault (.noSuchByte .line i)

/-- Publish the first `cursor` bytes of the line as the snapshot (R101), marking an overrun (R102). -/
def State.publish (s : State) : State :=
  { s with
    overrun := overrunAfter s.cmdReady s.overrun
    snap := Memory.copyFirst s.cursor s.buf s.snap
    snapLen := s.cursor
    cmdReady := true
    cursor := 0 }

/-- `LineCompletion()` (R101). The NUL is stored first and is not copied. -/
def State.completeLine (s : State) : Host.Outcome State Fault Refusal :=
  andThen (s.storeLine s.cursor 0x00) fun s1 =>
    if s1.cursor ≤ maxLen then .next s1.publish else .fault (.noSuchByte .snapshot maxLen)

/-- `buf[cursor] <- D; cursor <- cursor + 1` (R100). -/
def State.appendByte (s : State) (d : Byte) : Host.Outcome State Fault Refusal :=
  andThen (s.storeLine s.cursor d) fun s1 => .next { s1 with cursor := s1.cursor + 1 }

/-- `snap[i]` inside the line (R104). A byte that nothing determined is drawn. -/
def State.answerSnap (s : State) (i : Nat) : Host.Outcome State Fault Refusal :=
  if i < maxLen then
    match s.snap.read i with
    | some b => .next (s.answer (.byte b))
    | none => .next s.answerDraw
  else .fault (.noSuchByte .snapshot i)

/-! ### The classifier and the gate -/

/-- The direction of a sample under the calibration registers (R130). -/
def State.directionOf (s : State) (x y : AxisValue) : Direction :=
  direction x y s.calCx s.calCy s.calDz

/-- The bytes a tick queues (R150): the direction frame, then the button frame, each if the policy sends it. -/
def State.tickBytes (s : State) (d : Direction) (p : Bool) : List Byte :=
  (if sendsDirection s.cfg.txTrigger s.prevDir d then dirFrame d else []) ++
    (if sendsButton s.cfg.txTrigger s.prevPressed p then buttonFrame else [])

/-- `tx_q <- q; prev_dir <- d; prev_pressed <- p` (R150). -/
def State.fillGate (s : State) (q : List Byte) (d : Direction) (p : Bool) : State :=
  { s with txQ := q, prevDir := d, prevPressed := p }

/-! ### Control -/

/-- Write one calibration register (R180, R36). -/
def State.setCal (s : State) (sel : CalReg) (v : AxisValue) : State :=
  match sel with
  | .cx => { s with calCx := v }
  | .cy => { s with calCy := v }
  | .dz => { s with calDz := v }

/-- Every element of 10_state.md R21 at its reset value (R182). The undetermined bytes of the stores become unlisted
(log 6); the calibration registers take the configured reset values. The model's own fields stay (log 16). -/
def State.resetBlock (s : State) : State :=
  { s with
    buf := []
    cursor := 0
    snap := []
    snapLen := 0
    cmdReady := false
    calCx := s.cfg.calCxRst
    calCy := s.cfg.calCyRst
    calDz := s.cfg.calDzRst
    txQ := []
    prevDir := .neutral
    prevPressed := false
    halted := false
    overrun := false
    refused := false }

/-! ### The agents' turns (10_state.md R20, 20_memory.md R55; log 1) -/

/-- The words an agent has issued. -/
def Inbox.get (q : Inbox) : Agent → List EventWord
  | .rx => q.rx
  | .consumer => q.consumer
  | .ticker => q.ticker
  | .probe => q.probe
  | .link => q.link
  | .host => q.host

/-- Replace the words an agent has issued. -/
def Inbox.set (q : Inbox) (a : Agent) (ws : List EventWord) : Inbox :=
  match a with
  | .rx => { q with rx := ws }
  | .consumer => { q with consumer := ws }
  | .ticker => { q with ticker := ws }
  | .probe => { q with probe := ws }
  | .link => { q with link := ws }
  | .host => { q with host := ws }

/-- The agent whose turn it is and the word it offers, if there are both. -/
def State.offered (s : State) : Option (Agent × EventWord) :=
  match s.turns with
  | [] => none
  | a :: _ =>
    match s.inbox.get a with
    | [] => none
    | w :: _ => some (a, w)

/-- The turn is over and no word was taken. -/
def State.passTurn (s : State) : State := { s with turns := s.turns.tail }

/-- The turn of `a` is over. Its word is taken, unless the event has no step: a held word stays, since its agent waits
(R11, R208; log 2). A stuck word stays too: DESIGN CHOICE (log 17). The spec does not say whether an agent with a stuck
event can issue another. Here the words behind a stuck one are not offered until a RESET ends the halt, a RESET of the same
HOST list included, so that HOST leaves the halted state only where its RESET stands ahead of any stuck word. -/
def State.endTurn (s : State) (a : Agent) : State :=
  { s with
    turns := s.turns.tail
    inbox := if s.reply.waits then s.inbox else s.inbox.set a (s.inbox.get a).tail }

/-- `a` issues `w` ahead of its other words and has the next turn. -/
def State.offer (s : State) (a : Agent) (w : EventWord) : State :=
  { s with turns := a :: s.turns, inbox := s.inbox.set a (w :: s.inbox.get a) }

/-- The agent that a word's event belongs to (R20); an illegal word is anyone's, and HOST stands for it. -/
def agentOfWord (aw : AxisWidth) (w : EventWord) : Agent :=
  match decode aw w with
  | .event i => i.agent
  | .illegal _ => .host

end Sys2Proof.Machine
end

