-- ==== Sys2Proof/Machine/Classifier.lean ====
section
/-! DEFINITION. The direction classifier's event (41_classifier.md). -/

namespace Sys2Proof.Machine

open Sys2Proof

/-- CLASSIFY (R132). -/
def execClassify (x y : AxisValue) (btn : Bool) (s : State) : Host.Outcome State Fault Refusal :=
  whenRunning s <| .next (s.answer (.classified (classifyWord (s.directionOf x y) (pressed btn))))

end Sys2Proof.Machine
end

