-- ==== Sys2Proof/Machine/Control.lean ====
section
/-! DEFINITION. The control events (43_control.md). -/

namespace Sys2Proof.Machine

open Sys2Proof

/-- CAL_WRITE (R180). -/
def execCalWrite (sel : CalReg) (v : AxisValue) (s : State) : Host.Outcome State Fault Refusal :=
  whenRunning s <| .next ((s.setCal sel v).answer .done)

/-- HALT (R181). -/
def execHalt (s : State) : Host.Outcome State Fault Refusal :=
  whenRunning s <| .next ({ s with halted := true }.answer .done)

/-- RESET (R182), enabled in every state. -/
def execReset (s : State) : Host.Outcome State Fault Refusal :=
  .next (s.resetBlock.answer .done)

end Sys2Proof.Machine
end

