-- ==== Sys2Proof/Machine/Framer.lean ====
section
/-! DEFINITION. The receive framer's events (40_framer.md). -/

namespace Sys2Proof.Machine

open Sys2Proof

/-- RX_BYTE (R100). -/
def execRxByte (d : Byte) (s : State) : Host.Outcome State Fault Refusal :=
  whenRunning s <|
    andThen (s.appendByte d) fun s1 =>
      if lineComplete d s1.cursor then andThen s1.completeLine fun s2 => .next (s2.answer .done)
      else .next (s1.answer .done)

/-- STATUS_READ (R103). -/
def execStatusRead (s : State) : Host.Outcome State Fault Refusal :=
  whenRunning s <| .next (s.answer (.status (statusWord s.snapLen (!s.txQ.isEmpty) s.cmdReady)))

/-- SNAP_READ (R104). -/
def execSnapRead (idx : BitVec 7) (s : State) : Host.Outcome State Fault Refusal :=
  whenRunning s <| if idx.toNat < s.snapLen then s.answerSnap idx.toNat else .next s.answerDraw

/-- CMD_ACK (R105). -/
def execCmdAck (s : State) : Host.Outcome State Fault Refusal :=
  whenRunning s <| .next ({ s with cmdReady := false }.answer .done)

end Sys2Proof.Machine
end

