-- ==== Sys2Proof/Machine/Gate.lean ====
section
/-! DEFINITION. The transmit gate's events (42_transmit_gate.md). -/

namespace Sys2Proof.Machine

open Sys2Proof

/-- TICK (R150). -/
def execTick (x y : AxisValue) (btn : Bool) (s : State) : Host.Outcome State Fault Refusal :=
  whenRunning s <|
    if s.txQ.isEmpty then
      let d := s.directionOf x y
      let p := pressed btn
      .next ((s.fillGate (s.tickBytes d p) d p).answer .done)
    else .next (s.answer (.hold .txBusy))

/-- TX_ACCEPT (R151). -/
def execTxAccept (s : State) : Host.Outcome State Fault Refusal :=
  whenRunning s <|
    match s.txQ with
    | [] => .next (s.answer (.hold .txEmpty))
    | b :: q => .next ({ s with txQ := q }.answer (.byte b))

end Sys2Proof.Machine
end

