-- ==== Sys2Proof/Machine/Dispatch.lean ====
section
/-! DEFINITION. One arm per event (spec/opcode_table.json). -/

namespace Sys2Proof.Machine

open Sys2Proof

def exec (i : Instr) (s : State) : Host.Outcome State Fault Refusal :=
  match i with
  | .rxByte d => Sys2Proof.Machine.execRxByte d s
  | .statusRead => Sys2Proof.Machine.execStatusRead s
  | .snapRead idx => Sys2Proof.Machine.execSnapRead idx s
  | .cmdAck => Sys2Proof.Machine.execCmdAck s
  | .tick x y btn => Sys2Proof.Machine.execTick x y btn s
  | .classify x y btn => Sys2Proof.Machine.execClassify x y btn s
  | .txAccept => Sys2Proof.Machine.execTxAccept s
  | .calWrite sel v => Sys2Proof.Machine.execCalWrite sel v s
  | .halt => Sys2Proof.Machine.execHalt s
  | .reset => Sys2Proof.Machine.execReset s

end Sys2Proof.Machine
end

