-- ==== Sys2Proof/Machine/Step.lean ====
section
/-! DEFINITION. One step: the agent whose turn it is offers its oldest word, the word is decoded, and the event is run or
the word refused (60_exceptions.md R212: decode refusal, then the halted check, then the hold, then the effect). -/

namespace Sys2Proof.Machine

open Sys2Proof

/-- One step of the machine. Without an offered word the turn passes and the block is "simply not sent events"
(R216; log 11). -/
def step (s : State) : Host.Outcome State Fault Refusal :=
  match s.offered with
  | none => .next s.passTurn
  | some (a, w) =>
    match decode s.cfg.axisW w with
    | .illegal r => .next ((s.refuse r w).endTurn a)
    | .event i => andThen (exec i s) fun t => .next (t.endTurn a)

/-- `s` with a word of the opcode table issued by the agent its event belongs to (R20), at the head of that agent's words
and with the next turn, so that the very next step takes it (log 1). -/
def State.withFetchWord (s : State) (nbits w : Nat) : State :=
  s.offer (agentOfWord s.cfg.axisW (wordOfBits nbits w)) (wordOfBits nbits w)

end Sys2Proof.Machine
end

