-- ==== Sys2Proof/Safety.lean ====
section
/-! DEFINITION. What a run of the block is, when it ends well (60_exceptions.md R217), and the invariant that every step
keeps. -/

namespace Sys2Proof.Machine

open Sys2Proof

/-- The events of a list, run in order (R217: a run is a finite sequence of events chosen by the agents). DESIGN CHOICE
(log 18): a held or stuck event of the list changes nothing of the block and is passed over, and the list goes on with the
next event. The spec does not say whether a sequence goes on past it; `step` keeps such a word with its agent (log 2,
log 17). -/
def runEvents : List Instr → State → Host.Outcome State Fault Refusal
  | [], s => .next s
  | i :: is, s => andThen (exec i s) (runEvents is)

/-- The bytes of a list received in order, the pseudo-event `rxs` of 30_encoding.md R85. -/
def receive (bytes : List Byte) (s : State) : Host.Outcome State Fault Refusal :=
  runEvents (bytes.map .rxByte) s

/-- A run that is in `s` after its last event ends well (R217). -/
def State.endsWell (s : State) : Bool := !s.halted && !s.refused && s.txQ.isEmpty

/-- A line of the inbound wire format (30_encoding.md R70): 1 to 99 bytes, ended by its first 0x0A or by its 99th byte. -/
def isLine (l : List Byte) : Prop :=
  l.length ≤ 99 ∧ ∃ (body : List Byte) (last : Byte),
    l = body ++ [last] ∧ (∀ b ∈ body, b ≠ term) ∧ (last = term ∨ l.length = 99)

/-- The `OP` number of a word (30_encoding.md R73). -/
def wordOp (w : EventWord) : Nat := w.toNat / 2 ^ 60

/-- Bit `k` belongs to a named operand field of `OP = op` (30_encoding.md R75 to R79). -/
def namedBit (op k : Nat) : Bool :=
  if op = 1 then decide (k < 8)
  else if op = 3 then decide (k < 7)
  else if op = 5 ∨ op = 6 then decide (k < 33)
  else if op = 8 then decide (k < 16 ∨ k = 32 ∨ k = 33)
  else false

/-- Every operand bit outside the named fields of the word's `OP` is 0 (30_encoding.md R73, R80). -/
def reservedBitsZero (w : EventWord) : Prop :=
  ∀ k < 60, namedBit (wordOp w) k = false → w.getLsbD k = false

/-- The code byte of a direction's frame as 30_encoding.md R71's table lists it; Neutral has none. -/
def wireCode : Direction → Option Byte
  | .neutral => none
  | .up => some 0x55
  | .down => some 0x44
  | .left => some 0x4C
  | .right => some 0x52

/-- The bytes of a direction frame on the wire (R71). -/
def directionBytes (d : Direction) : List Byte :=
  match wireCode d with
  | none => []
  | some c => [c, 0x0D, 0x0A]

/-- A received byte completes the line in progress (40_framer.md R100): it is 0x0A, or it is the 99th. -/
def State.completes (s : State) (i : Instr) : Prop :=
  ∃ d, i = .rxByte d ∧ (d = 0x0A ∨ s.cursor = 98)

/-- What holds of the block between events. -/
structure State.Inv (s : State) : Prop where
  /-- The configured reset values lie in the width of the axes (00_scope.md R6). -/
  cfgWf : s.cfg.wf = true
  /-- The calibration registers are `AXIS_W` bits wide (10_state.md R21). -/
  calWidth : (s.cfg.axisW.admits s.calCx && s.cfg.axisW.admits s.calCy && s.cfg.axisW.admits s.calDz) = true
  /-- `0 <= cursor <= MAXLEN - 1` (R23). -/
  cursorLe : s.cursor ≤ 98
  /-- `buf` is a canonical store of 100 bytes (R21). -/
  bufWf : Memory.wf 100 s.buf = true
  /-- `snap` is a canonical store of 99 bytes (R21). -/
  snapWf : Memory.wf 99 s.snap = true
  /-- The line in progress is stored, and no byte of it is the terminator (30_encoding.md R70). -/
  lineBytes : ∀ i < s.cursor, ∃ b, s.buf.read i = some b ∧ b ≠ term
  /-- `snap_len` is at most 99 (R24). -/
  snapLenLe : s.snapLen ≤ 99
  /-- The snapshot's bytes are stored, and only its last one may be the terminator (R70). -/
  snapBytes : ∀ i < s.snapLen, ∃ b, s.snap.read i = some b ∧ (b = term → i + 1 = s.snapLen)
  /-- A snapshot ends with the terminator or is 99 bytes long (R70). -/
  snapEnd : 0 < s.snapLen → s.snapLen = 99 ∨ s.snap.read (s.snapLen - 1) = some term
  /-- A line that is signalled has a byte (R24, R25). -/
  readyLine : s.cmdReady = true → 0 < s.snapLen
  /-- An overrun is marked only by a completion (R26). -/
  overrunLine : s.overrun = true → 0 < s.snapLen
  /-- `tx_q` is what the link has not yet taken of the frames of the latest tick (R28, 30_encoding.md R71, R154). -/
  gateBytes : ∃ p, (p = true → s.prevPressed = true) ∧
    s.txQ <:+ dirFrame s.prevDir ++ (if p then buttonFrame else [])

end Sys2Proof.Machine
end

