-- ==== Sys2Proof/Certificates/Slice0/Obligations.lean ====
section
/-! DEFINITION. The statements for the provers. Each docstring names the rule of spec/ it formalises. -/

open Sys2Proof Sys2Proof.Machine

/-! ### Encoding (30_encoding.md) -/

/-- Decode and encode agree on every well-formed event (30_encoding.md R75 to R79, R82). -/
def Obligations.DecodeOfEncodeIsTheEvent : Prop :=
  ∀ (aw : AxisWidth) (i : Instr), i.wellFormed aw = true → decode aw (encode i) = .event i

/-- The decoder ignores no bit and admits no operand out of range (R73, R80, R82). -/
def Obligations.DecodedWordIsTheEncodingOfItsEvent : Prop :=
  ∀ (aw : AxisWidth) (w : EventWord) (i : Instr),
    decode aw w = .event i → encode i = w ∧ i.wellFormed aw = true

/-- R80, with the order of its list: each reason exactly when its condition holds and no earlier one does. -/
def Obligations.IllegalWordsGetTheFirstReason : Prop :=
  ∀ (aw : AxisWidth) (w : EventWord),
    let op := wordOp w
    let n := w.toNat
    (decode aw w = .illegal .reservedOp ↔ op = 0 ∨ 11 ≤ op) ∧
    (decode aw w = .illegal .nonzeroReservedBits ↔ (1 ≤ op ∧ op ≤ 10) ∧ ¬ reservedBitsZero w) ∧
    (decode aw w = .illegal .indexRange ↔ op = 3 ∧ reservedBitsZero w ∧ 98 < n % 2 ^ 7) ∧
    (decode aw w = .illegal .sampleRange ↔ (op = 5 ∨ op = 6) ∧ reservedBitsZero w ∧
      (2 ^ aw.bits ≤ n % 2 ^ 16 ∨ 2 ^ aw.bits ≤ n / 2 ^ 16 % 2 ^ 16)) ∧
    (decode aw w = .illegal .reservedSel ↔ op = 8 ∧ reservedBitsZero w ∧ n / 2 ^ 32 % 4 = 3) ∧
    (decode aw w = .illegal .valueRange ↔ op = 8 ∧ reservedBitsZero w ∧ n / 2 ^ 32 % 4 ≠ 3 ∧
      2 ^ aw.bits ≤ n % 2 ^ 16)

/-- The encoding vectors of 95_test_vectors.md section 2. -/
def Obligations.ListedWordsDecodeAsListed : Prop :=
  decode .w12 0x1000000000000046 = .event (.rxByte 0x46) ∧
    decode .w12 0x2000000000000000 = .event .statusRead ∧
    decode .w12 0x3000000000000062 = .event (.snapRead 98) ∧
    decode .w12 0x4000000000000000 = .event .cmdAck ∧
    decode .w12 0x50000001080009F5 = .event (.tick 2549 2048 true) ∧
    decode .w12 0x60000001080009F5 = .event (.classify 2549 2048 true) ∧
    decode .w12 0x7000000000000000 = .event .txAccept ∧
    decode .w12 0x8000000100000800 = .event (.calWrite .cy 2048) ∧
    decode .w12 0x80000002000001F4 = .event (.calWrite .dz 500) ∧
    decode .w12 0x9000000000000000 = .event .halt ∧
    decode .w12 0xA000000000000000 = .event .reset ∧
    decode .w12 0xF000000000000000 = .illegal .reservedOp ∧
    decode .w12 0x30000000000000E3 = .illegal .nonzeroReservedBits ∧
    decode .w12 0x3000000000000063 = .illegal .indexRange ∧
    decode .w12 0x8000000300000000 = .illegal .reservedSel ∧
    decode .w12 0x8000000000001000 = .illegal .valueRange ∧
    decode .w12 0x6000000000001000 = .illegal .sampleRange ∧
    decode .w13 0x6000000000001000 = .event (.classify 4096 0 false)

/-! ### The step, the agents and the outcomes (00_scope.md R11, 60_exceptions.md) -/

/-- A step runs the decoded event (R20, R55, R212). The turn that is used up and the oldest word that is taken are the
model's choice (log 1). That a held word stays is its reading (log 2), that a stuck word stays its choice (log 17). -/
def Obligations.StepRunsTheOfferedEvent : Prop :=
  ∀ (s : State) (a : Agent) (rest : List Agent) (w : EventWord) (ws : List EventWord) (i : Instr),
    s.turns = a :: rest → s.inbox.get a = w :: ws → decode s.cfg.axisW w = .event i →
    step s = (match exec i s with
      | .next t => .next { t with
          turns := t.turns.tail
          inbox := if t.reply.waits then t.inbox else t.inbox.set a (t.inbox.get a).tail }
      | .fault f => .fault f
      | .refused r => .refused r) ∧
    (∀ t, exec i s = .next t → t.turns = a :: rest ∧ t.inbox = s.inbox)

/-- R207. Decoding comes before the halted check, so there is no hypothesis on `halted`. That the turn ends is the
model's choice (log 1), and that the word is taken its reading (log 3, DEDUCED). -/
def Obligations.RefusedWordSetsOnlyTheRefusedMark : Prop :=
  (∀ (s : State) (a : Agent) (rest : List Agent) (w : EventWord) (ws : List EventWord) (r : RefuseReason),
      s.turns = a :: rest → s.inbox.get a = w :: ws → decode s.cfg.axisW w = .illegal r →
      step s = .next { s with
        refused := true, reply := .refused r w, turns := rest, inbox := s.inbox.set a ws }) ∧
    (∀ s t : State, s.refused = true → step s = .next t →
      t.refused = true ∨ ∃ a w, s.offered = some (a, w) ∧ decode s.cfg.axisW w = .event .reset)

/-- DESIGN CHOICE (log 11, with the turns of log 1), after R216's "the block is simply not sent events". -/
def Obligations.StepWithoutAnEventPassesTheTurn : Prop :=
  ∀ s : State, (s.turns = [] ∨ ∃ a rest, s.turns = a :: rest ∧ s.inbox.get a = []) →
    step s = .next { s with turns := s.turns.tail }

/-- R209 (no partial effect) and R11 (the agent of a held event waits), as log 2 reads them. That a stuck word stays
at the head of its agent's words is the model's choice (log 17), and so is the turn that is used (log 1). -/
def Obligations.WaitingEventChangesNothingAndStays : Prop :=
  ∀ (s t : State) (a : Agent) (w : EventWord) (i : Instr),
    s.offered = some (a, w) → decode s.cfg.axisW w = .event i → exec i s = .next t → t.reply.waits = true →
    step s = .next { s with turns := s.turns.tail, reply := t.reply }

/-- R208's list of holds, over every event: a hold implies its condition. That each condition gives the hold is said by
`TickHoldsWhileBytesAreQueued` and `TxAcceptTakesTheHead`. -/
def Obligations.OnlyTickAndAcceptHold : Prop :=
  ∀ (i : Instr) (s t : State) (r : HoldReason), exec i s = .next t → t.reply = .hold r →
    s.halted = false ∧
      ((r = .txBusy ∧ s.txQ ≠ [] ∧ ∃ x y btn, i = .tick x y btn) ∨ (r = .txEmpty ∧ s.txQ = [] ∧ i = .txAccept))

/-- R206. -/
def Obligations.HaltedBlockStepsOnlyByReset : Prop :=
  (∀ (i : Instr) (s : State), s.halted = true → i ≠ .reset → exec i s = .next { s with reply := .stuck }) ∧
    (∀ s t : State, s.halted = true → step s = .next t →
      t.halted = true ∨ ∃ a w, s.offered = some (a, w) ∧ decode s.cfg.axisW w = .event .reset) ∧
    (∀ s : State, s.halted = true → s.endsWell = false) ∧
    (∀ s : State, s.halted = true → ∃ t, exec .reset s = .next t ∧ t.halted = false)

/-- R7: no event writes the configuration; log 4 for where the model holds it. -/
def Obligations.ConfigurationIsFixedForARun : Prop :=
  ∀ (k : Nat) (s t : State), Host.Core.run Sys2Proof.core k s = .next t → t.cfg = s.cfg

/-! ### Receive framer (40_framer.md) -/

/-- R100, the branch without a completion. -/
def Obligations.RxByteInsideALineOnlyAppends : Prop :=
  ∀ (s : State) (d : Byte), s.halted = false → s.cursor < 98 → d ≠ 0x0A →
    ∃ t, exec (.rxByte d) s = .next t ∧
      t = { s with buf := t.buf, cursor := s.cursor + 1, reply := .done } ∧
      (∀ a, t.buf.read a = if a = s.cursor then some d else s.buf.read a)

/-- R101 and R102, with the byte of R100 already stored. That the snapshot bytes beyond the new line stay as they were
is the model's reading (log 14, DEDUCED): R24 gives them no defined value, and no event shows them. -/
def Obligations.RxByteCompletesTheLine : Prop :=
  ∀ (s : State) (d : Byte), s.halted = false → s.cursor ≤ 98 → (d = 0x0A ∨ s.cursor = 98) →
    ∃ t, exec (.rxByte d) s = .next t ∧
      t = { s with
        buf := t.buf, snap := t.snap, cursor := 0, snapLen := s.cursor + 1, cmdReady := true
        overrun := s.overrun || s.cmdReady, reply := .done } ∧
      (∀ a, t.buf.read a =
        if a = s.cursor + 1 then some 0x00 else if a = s.cursor then some d else s.buf.read a) ∧
      (∀ a, t.snap.read a =
        if a = s.cursor then some d else if a < s.cursor then s.buf.read a else s.snap.read a)

/-- R35's table, as STATUS_READ (R103) returns it. -/
def Obligations.StatusReadReturnsTheStatusWord : Prop :=
  ∀ s : State, s.halted = false →
    ∃ v : BitVec 16, exec .statusRead s = .next { s with reply := .status v } ∧
      v.getLsbD 0 = s.cmdReady ∧
      v.getLsbD 1 = decide (s.txQ ≠ []) ∧
      (∀ k, 2 ≤ k → k ≤ 7 → v.getLsbD k = false) ∧
      (∀ k < 7, v.getLsbD (8 + k) = s.snapLen.testBit k) ∧
      v.getLsbD 15 = false

/-- R104. The drawn byte is a free value (log 7); nothing is said of it. -/
def Obligations.SnapReadReturnsTheSnapshotByteOrADraw : Prop :=
  ∀ (s : State) (idx : BitVec 7), s.halted = false → idx.toNat ≤ 98 →
    (∀ b, idx.toNat < s.snapLen → s.snap.read idx.toNat = some b →
      exec (.snapRead idx) s = .next { s with reply := .byte b }) ∧
    ((s.snapLen ≤ idx.toNat ∨ s.snap.read idx.toNat = none) →
      ∃ b, exec (.snapRead idx) s = .next { s with draws := s.draws + 1, reply := .byte b })

/-- R105. -/
def Obligations.CmdAckClearsOnlyTheFlag : Prop :=
  ∀ s : State,
    (s.halted = false → exec .cmdAck s = .next { s with cmdReady := false, reply := .done }) ∧
    (s.halted = true → exec .cmdAck s = .next { s with reply := .stuck }) ∧
    (s.halted = false → s.cmdReady = false → exec .cmdAck s = .next { s with reply := .done })

/-- The framer refines the wire format of R70 (R100, R101, R102, R107). -/
def Obligations.ReceivedLineBecomesTheSnapshot : Prop :=
  ∀ (s : State) (l : List Byte), s.halted = false → s.cursor = 0 → isLine l →
    ∃ t, receive l s = .next t ∧
      t = { s with
        buf := t.buf, snap := t.snap, cursor := 0, snapLen := l.length, cmdReady := true
        overrun := s.overrun || s.cmdReady, reply := .done } ∧
      (∀ (k : Nat) (h : k < l.length), t.snap.read k = some l[k])

/-- R100 and R107; the source's property in vector W3. -/
def Obligations.UnfinishedLineProducesNothing : Prop :=
  ∀ (s : State) (l : List Byte), s.halted = false → s.cursor = 0 → l.length < 99 → (∀ b ∈ l, b ≠ 0x0A) →
    ∃ t, receive l s = .next t ∧
      t = { s with buf := t.buf, cursor := l.length, reply := t.reply } ∧
      (∀ (k : Nat) (h : k < l.length), t.buf.read k = some l[k])

/-- R109. -/
def Obligations.OverlongRunGivesTwoLines : Prop :=
  (∀ (s : State) (l : List Byte), s.halted = false → s.cursor = 0 → l.length = 99 → (∀ b ∈ l, b ≠ 0x0A) →
      ∃ t u, receive l s = .next t ∧ receive (l ++ [0x0A]) s = .next u ∧
        (t.snapLen = 99 ∧ t.cmdReady = true ∧ t.cursor = 0 ∧
          ∀ (k : Nat) (h : k < l.length), t.snap.read k = some l[k]) ∧
        (u.snapLen = 1 ∧ u.cmdReady = true ∧ u.cursor = 0 ∧ u.snap.read 0 = some 0x0A)) ∧
    (∀ s : State, s.halted = false → s.cursor = 0 →
      ∃ t, exec (.rxByte 0x0A) s = .next t ∧ t.snapLen = 1 ∧ t.cmdReady = true ∧ t.snap.read 0 = some 0x0A)

/-- The reason R108 gives for the hand-off, over every list of events. That the list goes on past a
held or stuck event is the model's choice (log 18). -/
def Obligations.SignalledLineStaysUntilAcknowledged : Prop :=
  ∀ (es : List Instr) (s t : State), runEvents es s = .next t → s.cmdReady = true →
    (∀ e ∈ es, e ≠ .cmdAck ∧ e ≠ .reset) → t.overrun = false →
    t.cmdReady = true ∧ t.snap = s.snap ∧ t.snapLen = s.snapLen

/-- R25, and R182 for RESET. -/
def Obligations.ReadyFlagHasOneSetterAndOneClearer : Prop :=
  ∀ (i : Instr) (s t : State), exec i s = .next t →
    (s.cmdReady = false → t.cmdReady = true → s.completes i) ∧
    (s.cmdReady = true → t.cmdReady = false → i = .cmdAck ∨ i = .reset) ∧
    (s.halted = false → s.completes i → t.cmdReady = true) ∧
    (s.halted = false → (i = .cmdAck ∨ i = .reset) → t.cmdReady = false)

/-- R26. -/
def Obligations.OverrunMarksACompletionOverAnUnreadLine : Prop :=
  (∀ (i : Instr) (s t : State), exec i s = .next t → i ≠ .reset →
      (t.overrun = true ↔ s.overrun = true ∨ (s.halted = false ∧ s.cmdReady = true ∧ s.completes i))) ∧
    (∀ s t : State, exec .reset s = .next t → t.overrun = false) ∧
    (∀ (i : Instr) (s t : State) (b : Bool), exec i s = .next t →
      ∃ b', exec i { s with overrun := b } = .next { t with overrun := b' })

/-- R22 and R24, with RESET (R182) as the exception. -/
def Obligations.SnapshotIsWrittenOnlyByACompletion : Prop :=
  ∀ (i : Instr) (s t : State), exec i s = .next t → i ≠ .reset →
    (¬ s.completes i → t.snap = s.snap ∧ t.snapLen = s.snapLen) ∧
    ((∀ d, i ≠ .rxByte d) → t.buf = s.buf ∧ t.cursor = s.cursor)

/-! ### Direction classifier (41_classifier.md) -/

/-- R130 and R131, in the result word of R81. -/
def Obligations.ClassifyReturnsDirectionAndPressed : Prop :=
  ∀ (s : State) (x y : AxisValue) (btn : Bool), s.halted = false →
    ∃ v : BitVec 4, exec (.classify x y btn) s = .next { s with reply := .classified v } ∧
      (v.getLsbD 3 = true ↔ btn = false) ∧
      v.toNat % 8 =
        (if (x.toNat : Int) > s.calCx.toNat + s.calDz.toNat then 4
        else if (x.toNat : Int) < s.calCx.toNat - s.calDz.toNat then 3
        else if (y.toNat : Int) > s.calCy.toNat + s.calDz.toNat then 1
        else if (y.toNat : Int) < s.calCy.toNat - s.calDz.toNat then 2
        else 0)

/-- R134. -/
def Obligations.NeutralExactlyInTheClosedBox : Prop :=
  ∀ x y cx cy dz : AxisValue, direction x y cx cy dz = .neutral ↔
    ((cx.toNat : Int) - dz.toNat ≤ x.toNat ∧ (x.toNat : Int) ≤ cx.toNat + dz.toNat) ∧
    ((cy.toNat : Int) - dz.toNat ≤ y.toNat ∧ (y.toNat : Int) ≤ cy.toNat + dz.toNat)

/-- R135. -/
def Obligations.HorizontalHasPriority : Prop :=
  ∀ x y cx cy dz : AxisValue,
    ((x.toNat : Int) > cx.toNat + dz.toNat → direction x y cx cy dz = .right) ∧
    ((x.toNat : Int) < cx.toNat - dz.toNat → direction x y cx cy dz = .left) ∧
    (direction x y cx cy dz = .up ∨ direction x y cx cy dz = .down →
      (cx.toNat : Int) - dz.toNat ≤ x.toNat ∧ (x.toNat : Int) ≤ cx.toNat + dz.toNat)

/-- R56's first sentence; repeated draws may differ (log 7). -/
def Obligations.ReadsHaveNoSideEffect : Prop :=
  ∀ (i : Instr) (s t : State),
    (i = .statusRead ∨ (∃ idx, i = .snapRead idx) ∨ ∃ x y btn, i = .classify x y btn) →
    exec i s = .next t → t = { s with reply := t.reply, draws := t.draws }

/-! ### Transmit gate (42_transmit_gate.md) -/

/-- R152, in the frame of R150. -/
def Obligations.LevelTickSendsWhileTheConditionHolds : Prop :=
  ∀ (s : State) (x y : AxisValue) (btn : Bool), s.halted = false → s.txQ = [] → s.cfg.txTrigger = .level →
    let d := direction x y s.calCx s.calCy s.calDz
    exec (.tick x y btn) s = .next { s with
      txQ := directionBytes d ++ (if btn = false then [0x42, 0x0D, 0x0A] else [])
      prevDir := d, prevPressed := !btn, reply := .done }

/-- R153, in the frame of R150. -/
def Obligations.EdgeTickSendsOnEntry : Prop :=
  (∀ (s : State) (x y : AxisValue) (btn : Bool), s.halted = false → s.txQ = [] → s.cfg.txTrigger = .edge →
      let d := direction x y s.calCx s.calCy s.calDz
      exec (.tick x y btn) s = .next { s with
        txQ := (if d ≠ s.prevDir then directionBytes d else []) ++
          (if btn = false ∧ s.prevPressed = false then [0x42, 0x0D, 0x0A] else [])
        prevDir := d, prevPressed := !btn, reply := .done }) ∧
    (∀ s t : State, exec .reset s = .next t → t.prevDir = .neutral ∧ t.prevPressed = false)

/-- R150's hold and R155. -/
def Obligations.TickHoldsWhileBytesAreQueued : Prop :=
  ∀ (s : State) (x y : AxisValue) (btn : Bool), s.halted = false → s.txQ ≠ [] →
    exec (.tick x y btn) s = .next { s with reply := .hold .txBusy }

/-- R151. -/
def Obligations.TxAcceptTakesTheHead : Prop :=
  ∀ s : State,
    (∀ b q, s.halted = false → s.txQ = b :: q →
      exec .txAccept s = .next { s with txQ := q, reply := .byte b }) ∧
    (s.halted = false → s.txQ = [] → exec .txAccept s = .next { s with reply := .hold .txEmpty }) ∧
    (s.halted = true → exec .txAccept s = .next { s with reply := .stuck })

/-- R154. -/
def Obligations.TickQueuesZeroThreeOrSixBytes : Prop :=
  ∀ (s t : State) (x y : AxisValue) (btn : Bool), exec (.tick x y btn) s = .next t → t.reply = .done →
    ∃ dir button : List Byte, t.txQ = dir ++ button ∧
      (dir = [] ∨ ∃ c, wireCode t.prevDir = some c ∧ dir = [c, 0x0D, 0x0A]) ∧
      (button = [] ∨ button = [0x42, 0x0D, 0x0A]) ∧
      (t.txQ.length = 0 ∨ t.txQ.length = 3 ∨ t.txQ.length = 6)

/-- R151 and R51: the bytes leave in the list order of `tx_q`. -/
def Obligations.LinkTakesTheQueuedBytesInOrder : Prop :=
  ∀ (s : State) (n : Nat) (b : Byte), s.halted = false → s.txQ[n]? = some b →
    runEvents (List.replicate (n + 1) .txAccept) s =
      .next { s with txQ := s.txQ.drop (n + 1), reply := .byte b }

/-- R152's "sends the symbol repeatedly" against R153's "fires once on state transition", over three phases of events. -/
def Obligations.RepeatedSampleSendsAgainOnlyInLevelMode : Prop :=
  ∀ (s t : State) (x y : AxisValue) (btn : Bool), s.halted = false → s.txQ = [] →
    exec (.tick x y btn) s = .next t →
    ∃ u, runEvents ([.tick x y btn] ++ List.replicate t.txQ.length .txAccept ++ [.tick x y btn]) s = .next u ∧
      u.txQ = (match s.cfg.txTrigger with | .level => t.txQ | .edge => [])

/-- R29: with LEVEL they have no effect on anything a port shows. -/
def Obligations.LevelModeIgnoresThePreviousTick : Prop :=
  ∀ (i : Instr) (s t : State) (d : Direction) (p : Bool), s.cfg.txTrigger = .level → exec i s = .next t →
    ∃ d' p', exec i { s with prevDir := d, prevPressed := p } = .next { t with prevDir := d', prevPressed := p' }

/-- R29 and R150, with RESET (R182) as the exception. -/
def Obligations.EveryReturningTickRecordsItsResult : Prop :=
  (∀ (s t : State) (x y : AxisValue) (btn : Bool), exec (.tick x y btn) s = .next t → t.reply = .done →
      t.prevDir = direction x y s.calCx s.calCy s.calDz ∧ t.prevPressed = !btn) ∧
    (∀ (i : Instr) (s t : State), exec i s = .next t → i ≠ .reset → (∀ x y btn, i ≠ .tick x y btn) →
      t.prevDir = s.prevDir ∧ t.prevPressed = s.prevPressed)

/-- R156 and R110. -/
def Obligations.GateAndFramerAreIndependent : Prop :=
  (∀ (i : Instr) (s t : State) (buf snap : Memory) (cursor snapLen : Nat) (ready : Bool),
      (i = .txAccept ∨ ∃ x y btn, i = .tick x y btn) → exec i s = .next t →
      exec i { s with buf := buf, cursor := cursor, snap := snap, snapLen := snapLen, cmdReady := ready } =
        .next { t with buf := buf, cursor := cursor, snap := snap, snapLen := snapLen, cmdReady := ready } ∧
      t = { t with
        buf := s.buf, cursor := s.cursor, snap := s.snap, snapLen := s.snapLen, cmdReady := s.cmdReady }) ∧
    (∀ (i : Instr) (s t : State) (q : List Byte) (cx cy dz : AxisValue) (d : Direction) (p : Bool),
      (i = .cmdAck ∨ ∃ b, i = .rxByte b) → exec i s = .next t →
      exec i { s with txQ := q, calCx := cx, calCy := cy, calDz := dz, prevDir := d, prevPressed := p } =
        .next { t with txQ := q, calCx := cx, calCy := cy, calDz := dz, prevDir := d, prevPressed := p } ∧
      t = { t with
        txQ := s.txQ, calCx := s.calCx, calCy := s.calCy, calDz := s.calDz
        prevDir := s.prevDir, prevPressed := s.prevPressed })

/-- R55 leaves the order of the RX and LINK agents free; by R156 it cannot be seen. -/
def Obligations.ReceiveAndTransmitCommute : Prop :=
  ∀ (s : State) (d : Byte), s.halted = false → s.cursor ≤ 98 → s.txQ ≠ [] →
    ∃ t u, runEvents [.rxByte d, .txAccept] s = .next t ∧ runEvents [.txAccept, .rxByte d] s = .next u ∧
      t = { u with reply := t.reply }

/-! ### Control (43_control.md) -/

/-- R180 and R36. -/
def Obligations.CalWriteWritesOneRegister : Prop :=
  ∀ (s : State) (v : AxisValue), s.halted = false →
    exec (.calWrite .cx v) s = .next { s with calCx := v, reply := .done } ∧
    exec (.calWrite .cy v) s = .next { s with calCy := v, reply := .done } ∧
    exec (.calWrite .dz v) s = .next { s with calDz := v, reply := .done }

/-- R27, with RESET (R182) as the exception. -/
def Obligations.CalibrationIsWrittenOnlyByCalWrite : Prop :=
  ∀ (i : Instr) (s t : State), exec i s = .next t → i ≠ .reset → (∀ sel v, i ≠ .calWrite sel v) →
    t.calCx = s.calCx ∧ t.calCy = s.calCy ∧ t.calDz = s.calDz

/-- R181. -/
def Obligations.HaltSetsOnlyTheHaltedBit : Prop :=
  ∀ s : State,
    (s.halted = false → exec .halt s = .next { s with halted := true, reply := .done }) ∧
    (s.halted = true → exec .halt s = .next { s with reply := .stuck })

/-- R182. That an undetermined byte reads as none is the model's (log 6), and what stays is log 16. -/
def Obligations.ResetRestoresEveryElement : Prop :=
  ∀ s : State, ∃ t, exec .reset s = .next t ∧
    (∀ a, t.buf.read a = none ∧ t.snap.read a = none) ∧
    t.cursor = 0 ∧ t.snapLen = 0 ∧ t.cmdReady = false ∧
    t.calCx = s.cfg.calCxRst ∧ t.calCy = s.cfg.calCyRst ∧ t.calDz = s.cfg.calDzRst ∧
    t.txQ = [] ∧ t.prevDir = .neutral ∧ t.prevPressed = false ∧
    t.halted = false ∧ t.overrun = false ∧ t.refused = false ∧ t.reply = .done ∧
    t.cfg = s.cfg ∧ t.draws = s.draws ∧ t.inbox = s.inbox ∧ t.turns = s.turns

/-- R216: nothing of the block survives the RESET as observable state. That the list goes on past a held or stuck event
is the model's choice (log 18). -/
def Obligations.ResetForgetsThePast : Prop :=
  ∀ (s s' : State) (es : List Instr),
    s'.cfg = s.cfg → s'.draws = s.draws → s'.inbox = s.inbox → s'.turns = s.turns →
    runEvents (.reset :: es) s' = runEvents (.reset :: es) s

/-! ### The whole machine -/

/-- R21 and R23 at reset; the calibration values are log 5's. -/
def Obligations.ResetStateMeetsTheInvariant : Prop :=
  State.Inv State.reset

/-- R21, R23, R24, R28 and R70 between events, over every agent and every word, legal or not. -/
def Obligations.StepKeepsTheInvariant : Prop :=
  ∀ s t : State, s.Inv → step s = .next t → t.Inv

/-- R200: the block raises no exception and has no trap. The guard it rules out is log 8's. -/
def Obligations.StepNeverStops : Prop :=
  ∀ s : State, s.Inv → ∃ t, step s = .next t

/-! ### The outcome codes and the hand-off -/

/-- R201's table, with R212's order between the halted check and the hold. -/
def Obligations.StepRecordsTheListedOutcomeCode : Prop :=
  ∀ (s t : State) (a : Agent) (w : EventWord), s.offered = some (a, w) → step s = .next t →
    (∀ r, decode s.cfg.axisW w = .illegal r → t.reply = .refused r w ∧
      ((r = .reservedOp ∧ t.reply.code = some 1) ∨ (r = .nonzeroReservedBits ∧ t.reply.code = some 2) ∨
        (r = .indexRange ∧ t.reply.code = some 3) ∨ (r = .sampleRange ∧ t.reply.code = some 4) ∨
        (r = .reservedSel ∧ t.reply.code = some 5) ∨ (r = .valueRange ∧ t.reply.code = some 6))) ∧
    (∀ i, decode s.cfg.axisW w = .event i →
      (t.reply.code = some 16 ↔ s.halted = true ∧ i ≠ .reset) ∧
      (t.reply.code = some 32 ↔ s.halted = false ∧ s.txQ ≠ [] ∧ ∃ x y btn, i = .tick x y btn) ∧
      (t.reply.code = some 33 ↔ s.halted = false ∧ s.txQ = [] ∧ i = .txAccept) ∧
      (∀ n, t.reply.code = some n → n = 16 ∨ n = 32 ∨ n = 33))

/-- R105 and R102 in the hand-off of R108 (70_reset_and_hazards.md R235), over every two lines of the wire format. -/
def Obligations.AcknowledgedLineMakesRoomForTheNext : Prop :=
  ∀ (s : State) (l l' : List Byte), s.halted = false → s.cursor = 0 → s.cmdReady = false → isLine l → isLine l' →
    ∃ t u v o, receive l s = .next t ∧ t.cmdReady = true ∧ t.overrun = s.overrun ∧
      exec .cmdAck t = .next u ∧ u = { t with cmdReady := false, reply := .done } ∧
      receive l' u = .next v ∧ v.cmdReady = true ∧ v.overrun = s.overrun ∧ v.snapLen = l'.length ∧
      (∀ (k : Nat) (h : k < l'.length), v.snap.read k = some l'[k]) ∧
      receive l' t = .next o ∧ o.overrun = true
end

