-- ==== Sys2Proof/Laws/Encoding.lean ====
section
/-! SUPPORT. The fields of an encoded word and of a decoded one. -/

namespace Sys2Proof

/-- A field above the low part of a concatenation is a field of its high part. -/
theorem fieldAbove (v w : Nat) {a : BitVec v} {b : BitVec w} {start len : Nat} (h : w ≤ start) :
    (a ++ b).extractLsb' start len = a.extractLsb' (start - w) len :=
  BitVec.extractLsb'_append_eq_of_le h

/-- A calibration register is the one its number stands for (10_state.md R36). -/
@[simp] theorem calRegOfSel_selOfCalReg (r : CalReg) : calRegOfSel (selOfCalReg r) = some r := by
  cases r <;> rfl

theorem selOfCalReg_of_calRegOfSel {sel : BitVec 2} {r : CalReg} (h : calRegOfSel sel = some r) :
    selOfCalReg r = sel := by
  revert r; revert sel; decide

/-- A number names no register exactly when it is 3. -/
theorem calRegOfSel_eq_none {sel : BitVec 2} : calRegOfSel sel = none ↔ sel = 3 := by
  revert sel; decide

theorem reservedClear_of_eq {w mask pat : EventWord} (h : w &&& mask = pat) (f : Decoded) :
    reservedClear w mask pat f = f := if_pos h

/-- An event comes out of a row only if the reserved bits are clear and the row's fields give it. -/
theorem reservedClear_eq_event {w mask pat : EventWord} {f : Decoded} {i : Instr} :
    reservedClear w mask pat f = .event i ↔ w &&& mask = pat ∧ f = .event i := by
  unfold reservedClear
  split <;> simp_all

end Sys2Proof
end

