-- ==== Sys2Proof/Laws/Memory.lean ====
section
/-! SUPPORT. The byte stores: what a read gives after each operation, and that each operation keeps the canonical form. -/

namespace Sys2Proof.Machine

open Sys2Proof

@[simp] theorem Memory.read_nil (a : Nat) : Memory.read [] a = none := rfl

theorem Memory.read_cons (k : Nat) (b : Byte) (m : Memory) (a : Nat) :
    Memory.read ((k, b) :: m) a = if k = a then some b else Memory.read m a := rfl

/-- A write changes the byte written and no other. -/
theorem Memory.read_write (m : Memory) (a x : Nat) (b : Byte) :
    (m.write a b).read x = if x = a then some b else m.read x := by
  induction m with
  | nil => simp [Memory.write, Memory.read_cons, eq_comm]
  | cons c m ih =>
    obtain ⟨k, c⟩ := c
    rw [Memory.write]
    split
    · simp [Memory.read_cons, eq_comm]
    · split
      · subst_vars; simp only [Memory.read_cons, eq_comm]; split <;> rfl
      · rw [Memory.read_cons, ih, Memory.read_cons]; grind

@[simp] theorem Memory.read_write_self (m : Memory) (a : Nat) (b : Byte) : (m.write a b).read a = some b := by
  simp [Memory.read_write]

theorem Memory.read_write_other (m : Memory) {a x : Nat} (b : Byte) (h : x ≠ a) : (m.write a b).read x = m.read x := by
  simp [Memory.read_write, h]

theorem Memory.read_append (m m' : Memory) (a : Nat) : Memory.read (m ++ m') a = (m.read a).or (m'.read a) := by
  induction m with
  | nil => rfl
  | cons c m ih => obtain ⟨k, b⟩ := c; simp only [List.cons_append, Memory.read_cons, ih]; split <;> rfl

theorem Memory.read_filter (p : Nat → Bool) (m : Memory) (a : Nat) :
    Memory.read (m.filter fun c => p c.1) a = if p a then m.read a else none := by
  induction m with
  | nil => simp
  | cons c m ih =>
    obtain ⟨k, b⟩ := c
    rw [List.filter_cons]
    by_cases hp : p k = true <;> by_cases hk : k = a <;> simp_all [Memory.read_cons]

/-- A copy of the first `n` bytes takes those bytes from the source and keeps the others. -/
theorem Memory.read_copyFirst (n : Nat) (src dst : Memory) (a : Nat) :
    (Memory.copyFirst n src dst).read a = if a < n then src.read a else dst.read a := by
  rw [Memory.copyFirst, Memory.read_append, Memory.read_filter (fun k => decide (k < n)),
    Memory.read_filter (fun k => decide (n ≤ k))]
  by_cases h : a < n <;> simp [h, Nat.not_le_of_lt, Nat.le_of_not_lt]

/-! ### The canonical form -/

theorem Memory.wfFrom_cons {lo cap k : Nat} {b : Byte} {m : Memory} :
    Memory.wfFrom lo cap ((k, b) :: m) = true ↔ lo ≤ k ∧ k < cap ∧ Memory.wfFrom (k + 1) cap m = true := by
  simp [Memory.wfFrom, and_assoc]

theorem Memory.wfFrom_mono {lo lo' cap : Nat} {m : Memory} (h : Memory.wfFrom lo cap m = true) (hl : lo' ≤ lo) :
    Memory.wfFrom lo' cap m = true := by
  cases m with
  | nil => rfl
  | cons c m => rw [Memory.wfFrom_cons] at *; exact ⟨by omega, h.2.1, h.2.2⟩

theorem Memory.wfFrom_write {lo cap a : Nat} {m : Memory} (b : Byte) (h : Memory.wfFrom lo cap m = true) (hl : lo ≤ a)
    (hc : a < cap) : Memory.wfFrom lo cap (m.write a b) = true := by
  induction m generalizing lo with
  | nil => simp [Memory.write, Memory.wfFrom, hl, hc]
  | cons c m ih =>
    obtain ⟨k, c⟩ := c
    rw [Memory.wfFrom_cons] at h
    rw [Memory.write]
    split
    · simp only [Memory.wfFrom_cons]; exact ⟨hl, hc, by omega, h.2⟩
    · split
      · subst_vars; simp only [Memory.wfFrom_cons]; exact ⟨hl, hc, h.2.2⟩
      · rw [Memory.wfFrom_cons]; exact ⟨h.1, h.2.1, ih h.2.2 (by omega)⟩

/-- A write inside the store keeps the canonical form. -/
theorem Memory.wf_write {cap a : Nat} {m : Memory} (b : Byte) (h : Memory.wf cap m = true) (hc : a < cap) :
    Memory.wf cap (m.write a b) = true :=
  Memory.wfFrom_write b h (Nat.zero_le a) hc

theorem Memory.wfFrom_filter_ge {lo cap : Nat} (n : Nat) {m : Memory} (h : Memory.wfFrom lo cap m = true) :
    Memory.wfFrom (max lo n) cap (m.filter fun c => decide (n ≤ c.1)) = true := by
  induction m generalizing lo with
  | nil => rfl
  | cons c m ih =>
    obtain ⟨k, b⟩ := c
    rw [Memory.wfFrom_cons] at h
    have hm := ih h.2.2
    rw [List.filter_cons]
    split
    · next hk =>
      have hk : n ≤ k := by simpa using hk
      rw [Memory.wfFrom_cons]
      exact ⟨by omega, h.2.1, Memory.wfFrom_mono hm (by omega)⟩
    · exact Memory.wfFrom_mono hm (by omega)

theorem Memory.filter_lt_of_wfFrom {lo cap n : Nat} {m : Memory} (h : Memory.wfFrom lo cap m = true) (hn : n ≤ lo) :
    m.filter (fun c => decide (c.1 < n)) = [] := by
  induction m generalizing lo with
  | nil => rfl
  | cons c m ih =>
    obtain ⟨k, b⟩ := c
    rw [Memory.wfFrom_cons] at h
    rw [List.filter_cons, if_neg (by simp; omega)]
    exact ih h.2.2 (by omega)

theorem Memory.wfFrom_append_filter_lt {lo cap cap' n : Nat} {m tail : Memory} (h : Memory.wfFrom lo cap' m = true)
    (hn : n ≤ cap) (ht : Memory.wfFrom (max lo n) cap tail = true) :
    Memory.wfFrom lo cap (m.filter (fun c => decide (c.1 < n)) ++ tail) = true := by
  induction m generalizing lo with
  | nil => exact Memory.wfFrom_mono ht (by omega)
  | cons c m ih =>
    obtain ⟨k, b⟩ := c
    rw [Memory.wfFrom_cons] at h
    rw [List.filter_cons]
    split
    · next hk =>
      have hk : k < n := by simpa using hk
      rw [List.cons_append, Memory.wfFrom_cons]
      exact ⟨h.1, by omega, ih h.2.2 (by rwa [show max (k + 1) n = max lo n by omega])⟩
    · next hk =>
      have hk : n ≤ k := by simpa using hk
      rw [Memory.filter_lt_of_wfFrom h.2.2 (by omega)]
      exact Memory.wfFrom_mono ht (by omega)

/-- A copy of the first `n` bytes keeps the canonical form, if the target has `n` bytes. -/
theorem Memory.wf_copyFirst {cap cap' n : Nat} {src dst : Memory} (hs : Memory.wf cap' src = true)
    (hd : Memory.wf cap dst = true) (hn : n ≤ cap) : Memory.wf cap (Memory.copyFirst n src dst) = true := by
  have h := Memory.wfFrom_filter_ge n hd
  rw [Nat.zero_max] at h
  exact Memory.wfFrom_append_filter_lt hs hn (by rwa [Nat.zero_max])

/-- Reading outside a canonical store finds nothing. -/
theorem Memory.read_of_wfFrom {lo cap a : Nat} {m : Memory} (h : Memory.wfFrom lo cap m = true)
    (ha : a < lo ∨ cap ≤ a) : m.read a = none := by
  induction m generalizing lo with
  | nil => rfl
  | cons c m ih =>
    obtain ⟨k, b⟩ := c
    rw [Memory.wfFrom_cons] at h
    rw [Memory.read_cons, if_neg (by omega)]
    exact ih h.2.2 (by omega)

/-- The stores of the state after reset are canonical. -/
theorem reset_stores_wf : Memory.wf 100 State.reset.buf = true ∧ Memory.wf 99 State.reset.snap = true := ⟨rfl, rfl⟩

end Sys2Proof.Machine
end

