-- ==== Sys2Proof/Laws/State.lean ====
section
/-! SUPPORT. What each field of State holds after each named update. -/

namespace Sys2Proof.Machine

open Sys2Proof

/-! ### State.answer -/

@[simp] theorem State.answer_buf (s : State) (r : Reply) : (s.answer r).buf = s.buf := rfl
@[simp] theorem State.answer_cursor (s : State) (r : Reply) : (s.answer r).cursor = s.cursor := rfl
@[simp] theorem State.answer_snap (s : State) (r : Reply) : (s.answer r).snap = s.snap := rfl
@[simp] theorem State.answer_snapLen (s : State) (r : Reply) : (s.answer r).snapLen = s.snapLen := rfl
@[simp] theorem State.answer_cmdReady (s : State) (r : Reply) : (s.answer r).cmdReady = s.cmdReady := rfl
@[simp] theorem State.answer_calCx (s : State) (r : Reply) : (s.answer r).calCx = s.calCx := rfl
@[simp] theorem State.answer_calCy (s : State) (r : Reply) : (s.answer r).calCy = s.calCy := rfl
@[simp] theorem State.answer_calDz (s : State) (r : Reply) : (s.answer r).calDz = s.calDz := rfl
@[simp] theorem State.answer_txQ (s : State) (r : Reply) : (s.answer r).txQ = s.txQ := rfl
@[simp] theorem State.answer_prevDir (s : State) (r : Reply) : (s.answer r).prevDir = s.prevDir := rfl
@[simp] theorem State.answer_prevPressed (s : State) (r : Reply) : (s.answer r).prevPressed = s.prevPressed := rfl
@[simp] theorem State.answer_halted (s : State) (r : Reply) : (s.answer r).halted = s.halted := rfl
@[simp] theorem State.answer_overrun (s : State) (r : Reply) : (s.answer r).overrun = s.overrun := rfl
@[simp] theorem State.answer_refused (s : State) (r : Reply) : (s.answer r).refused = s.refused := rfl
@[simp] theorem State.answer_cfg (s : State) (r : Reply) : (s.answer r).cfg = s.cfg := rfl
@[simp] theorem State.answer_draws (s : State) (r : Reply) : (s.answer r).draws = s.draws := rfl
@[simp] theorem State.answer_reply (s : State) (r : Reply) : (s.answer r).reply = r := rfl
@[simp] theorem State.answer_inbox (s : State) (r : Reply) : (s.answer r).inbox = s.inbox := rfl
@[simp] theorem State.answer_turns (s : State) (r : Reply) : (s.answer r).turns = s.turns := rfl

/-! ### State.answerDraw -/

@[simp] theorem State.answerDraw_buf (s : State) : s.answerDraw.buf = s.buf := rfl
@[simp] theorem State.answerDraw_cursor (s : State) : s.answerDraw.cursor = s.cursor := rfl
@[simp] theorem State.answerDraw_snap (s : State) : s.answerDraw.snap = s.snap := rfl
@[simp] theorem State.answerDraw_snapLen (s : State) : s.answerDraw.snapLen = s.snapLen := rfl
@[simp] theorem State.answerDraw_cmdReady (s : State) : s.answerDraw.cmdReady = s.cmdReady := rfl
@[simp] theorem State.answerDraw_calCx (s : State) : s.answerDraw.calCx = s.calCx := rfl
@[simp] theorem State.answerDraw_calCy (s : State) : s.answerDraw.calCy = s.calCy := rfl
@[simp] theorem State.answerDraw_calDz (s : State) : s.answerDraw.calDz = s.calDz := rfl
@[simp] theorem State.answerDraw_txQ (s : State) : s.answerDraw.txQ = s.txQ := rfl
@[simp] theorem State.answerDraw_prevDir (s : State) : s.answerDraw.prevDir = s.prevDir := rfl
@[simp] theorem State.answerDraw_prevPressed (s : State) : s.answerDraw.prevPressed = s.prevPressed := rfl
@[simp] theorem State.answerDraw_halted (s : State) : s.answerDraw.halted = s.halted := rfl
@[simp] theorem State.answerDraw_overrun (s : State) : s.answerDraw.overrun = s.overrun := rfl
@[simp] theorem State.answerDraw_refused (s : State) : s.answerDraw.refused = s.refused := rfl
@[simp] theorem State.answerDraw_cfg (s : State) : s.answerDraw.cfg = s.cfg := rfl
@[simp] theorem State.answerDraw_draws (s : State) : s.answerDraw.draws = s.draws + 1 := rfl
@[simp] theorem State.answerDraw_reply (s : State) : s.answerDraw.reply = .byte s.drawnByte := rfl
@[simp] theorem State.answerDraw_inbox (s : State) : s.answerDraw.inbox = s.inbox := rfl
@[simp] theorem State.answerDraw_turns (s : State) : s.answerDraw.turns = s.turns := rfl

/-! ### State.refuse -/

@[simp] theorem State.refuse_buf (s : State) (r : RefuseReason) (w : EventWord) : (s.refuse r w).buf = s.buf := rfl
@[simp] theorem State.refuse_cursor (s : State) (r : RefuseReason) (w : EventWord) :
    (s.refuse r w).cursor = s.cursor := rfl
@[simp] theorem State.refuse_snap (s : State) (r : RefuseReason) (w : EventWord) : (s.refuse r w).snap = s.snap := rfl
@[simp] theorem State.refuse_snapLen (s : State) (r : RefuseReason) (w : EventWord) :
    (s.refuse r w).snapLen = s.snapLen := rfl
@[simp] theorem State.refuse_cmdReady (s : State) (r : RefuseReason) (w : EventWord) :
    (s.refuse r w).cmdReady = s.cmdReady := rfl
@[simp] theorem State.refuse_calCx (s : State) (r : RefuseReason) (w : EventWord) :
    (s.refuse r w).calCx = s.calCx := rfl
@[simp] theorem State.refuse_calCy (s : State) (r : RefuseReason) (w : EventWord) :
    (s.refuse r w).calCy = s.calCy := rfl
@[simp] theorem State.refuse_calDz (s : State) (r : RefuseReason) (w : EventWord) :
    (s.refuse r w).calDz = s.calDz := rfl
@[simp] theorem State.refuse_txQ (s : State) (r : RefuseReason) (w : EventWord) : (s.refuse r w).txQ = s.txQ := rfl
@[simp] theorem State.refuse_prevDir (s : State) (r : RefuseReason) (w : EventWord) :
    (s.refuse r w).prevDir = s.prevDir := rfl
@[simp] theorem State.refuse_prevPressed (s : State) (r : RefuseReason) (w : EventWord) :
    (s.refuse r w).prevPressed = s.prevPressed := rfl
@[simp] theorem State.refuse_halted (s : State) (r : RefuseReason) (w : EventWord) :
    (s.refuse r w).halted = s.halted := rfl
@[simp] theorem State.refuse_overrun (s : State) (r : RefuseReason) (w : EventWord) :
    (s.refuse r w).overrun = s.overrun := rfl
@[simp] theorem State.refuse_refused (s : State) (r : RefuseReason) (w : EventWord) :
    (s.refuse r w).refused = true := rfl
@[simp] theorem State.refuse_cfg (s : State) (r : RefuseReason) (w : EventWord) : (s.refuse r w).cfg = s.cfg := rfl
@[simp] theorem State.refuse_draws (s : State) (r : RefuseReason) (w : EventWord) :
    (s.refuse r w).draws = s.draws := rfl
@[simp] theorem State.refuse_reply (s : State) (r : RefuseReason) (w : EventWord) :
    (s.refuse r w).reply = .refused r w := rfl
@[simp] theorem State.refuse_inbox (s : State) (r : RefuseReason) (w : EventWord) :
    (s.refuse r w).inbox = s.inbox := rfl
@[simp] theorem State.refuse_turns (s : State) (r : RefuseReason) (w : EventWord) :
    (s.refuse r w).turns = s.turns := rfl

/-! ### State.publish -/

@[simp] theorem State.publish_buf (s : State) : s.publish.buf = s.buf := rfl
@[simp] theorem State.publish_cursor (s : State) : s.publish.cursor = 0 := rfl
@[simp] theorem State.publish_snap (s : State) : s.publish.snap = Memory.copyFirst s.cursor s.buf s.snap := rfl
@[simp] theorem State.publish_snapLen (s : State) : s.publish.snapLen = s.cursor := rfl
@[simp] theorem State.publish_cmdReady (s : State) : s.publish.cmdReady = true := rfl
@[simp] theorem State.publish_calCx (s : State) : s.publish.calCx = s.calCx := rfl
@[simp] theorem State.publish_calCy (s : State) : s.publish.calCy = s.calCy := rfl
@[simp] theorem State.publish_calDz (s : State) : s.publish.calDz = s.calDz := rfl
@[simp] theorem State.publish_txQ (s : State) : s.publish.txQ = s.txQ := rfl
@[simp] theorem State.publish_prevDir (s : State) : s.publish.prevDir = s.prevDir := rfl
@[simp] theorem State.publish_prevPressed (s : State) : s.publish.prevPressed = s.prevPressed := rfl
@[simp] theorem State.publish_halted (s : State) : s.publish.halted = s.halted := rfl
@[simp] theorem State.publish_overrun (s : State) : s.publish.overrun = overrunAfter s.cmdReady s.overrun := rfl
@[simp] theorem State.publish_refused (s : State) : s.publish.refused = s.refused := rfl
@[simp] theorem State.publish_cfg (s : State) : s.publish.cfg = s.cfg := rfl
@[simp] theorem State.publish_draws (s : State) : s.publish.draws = s.draws := rfl
@[simp] theorem State.publish_reply (s : State) : s.publish.reply = s.reply := rfl
@[simp] theorem State.publish_inbox (s : State) : s.publish.inbox = s.inbox := rfl
@[simp] theorem State.publish_turns (s : State) : s.publish.turns = s.turns := rfl

/-! ### State.fillGate -/

@[simp] theorem State.fillGate_buf (s : State) (q : List Byte) (d : Direction) (p : Bool) :
    (s.fillGate q d p).buf = s.buf := rfl
@[simp] theorem State.fillGate_cursor (s : State) (q : List Byte) (d : Direction) (p : Bool) :
    (s.fillGate q d p).cursor = s.cursor := rfl
@[simp] theorem State.fillGate_snap (s : State) (q : List Byte) (d : Direction) (p : Bool) :
    (s.fillGate q d p).snap = s.snap := rfl
@[simp] theorem State.fillGate_snapLen (s : State) (q : List Byte) (d : Direction) (p : Bool) :
    (s.fillGate q d p).snapLen = s.snapLen := rfl
@[simp] theorem State.fillGate_cmdReady (s : State) (q : List Byte) (d : Direction) (p : Bool) :
    (s.fillGate q d p).cmdReady = s.cmdReady := rfl
@[simp] theorem State.fillGate_calCx (s : State) (q : List Byte) (d : Direction) (p : Bool) :
    (s.fillGate q d p).calCx = s.calCx := rfl
@[simp] theorem State.fillGate_calCy (s : State) (q : List Byte) (d : Direction) (p : Bool) :
    (s.fillGate q d p).calCy = s.calCy := rfl
@[simp] theorem State.fillGate_calDz (s : State) (q : List Byte) (d : Direction) (p : Bool) :
    (s.fillGate q d p).calDz = s.calDz := rfl
@[simp] theorem State.fillGate_txQ (s : State) (q : List Byte) (d : Direction) (p : Bool) :
    (s.fillGate q d p).txQ = q := rfl
@[simp] theorem State.fillGate_prevDir (s : State) (q : List Byte) (d : Direction) (p : Bool) :
    (s.fillGate q d p).prevDir = d := rfl
@[simp] theorem State.fillGate_prevPressed (s : State) (q : List Byte) (d : Direction) (p : Bool) :
    (s.fillGate q d p).prevPressed = p := rfl
@[simp] theorem State.fillGate_halted (s : State) (q : List Byte) (d : Direction) (p : Bool) :
    (s.fillGate q d p).halted = s.halted := rfl
@[simp] theorem State.fillGate_overrun (s : State) (q : List Byte) (d : Direction) (p : Bool) :
    (s.fillGate q d p).overrun = s.overrun := rfl
@[simp] theorem State.fillGate_refused (s : State) (q : List Byte) (d : Direction) (p : Bool) :
    (s.fillGate q d p).refused = s.refused := rfl
@[simp] theorem State.fillGate_cfg (s : State) (q : List Byte) (d : Direction) (p : Bool) :
    (s.fillGate q d p).cfg = s.cfg := rfl
@[simp] theorem State.fillGate_draws (s : State) (q : List Byte) (d : Direction) (p : Bool) :
    (s.fillGate q d p).draws = s.draws := rfl
@[simp] theorem State.fillGate_reply (s : State) (q : List Byte) (d : Direction) (p : Bool) :
    (s.fillGate q d p).reply = s.reply := rfl
@[simp] theorem State.fillGate_inbox (s : State) (q : List Byte) (d : Direction) (p : Bool) :
    (s.fillGate q d p).inbox = s.inbox := rfl
@[simp] theorem State.fillGate_turns (s : State) (q : List Byte) (d : Direction) (p : Bool) :
    (s.fillGate q d p).turns = s.turns := rfl

/-! ### State.setCal -/

@[simp] theorem State.setCal_buf (s : State) (sel : CalReg) (v : AxisValue) : (s.setCal sel v).buf = s.buf := by
  cases sel <;> rfl
@[simp] theorem State.setCal_cursor (s : State) (sel : CalReg) (v : AxisValue) : (s.setCal sel v).cursor = s.cursor := by
  cases sel <;> rfl
@[simp] theorem State.setCal_snap (s : State) (sel : CalReg) (v : AxisValue) : (s.setCal sel v).snap = s.snap := by
  cases sel <;> rfl
@[simp] theorem State.setCal_snapLen (s : State) (sel : CalReg) (v : AxisValue) : (s.setCal sel v).snapLen = s.snapLen := by
  cases sel <;> rfl
@[simp] theorem State.setCal_cmdReady (s : State) (sel : CalReg) (v : AxisValue) : (s.setCal sel v).cmdReady = s.cmdReady := by
  cases sel <;> rfl
@[simp] theorem State.setCal_calCx (s : State) (sel : CalReg) (v : AxisValue) :
    (s.setCal sel v).calCx = if sel = .cx then v else s.calCx := by cases sel <;> rfl
@[simp] theorem State.setCal_calCy (s : State) (sel : CalReg) (v : AxisValue) :
    (s.setCal sel v).calCy = if sel = .cy then v else s.calCy := by cases sel <;> rfl
@[simp] theorem State.setCal_calDz (s : State) (sel : CalReg) (v : AxisValue) :
    (s.setCal sel v).calDz = if sel = .dz then v else s.calDz := by cases sel <;> rfl
@[simp] theorem State.setCal_txQ (s : State) (sel : CalReg) (v : AxisValue) : (s.setCal sel v).txQ = s.txQ := by
  cases sel <;> rfl
@[simp] theorem State.setCal_prevDir (s : State) (sel : CalReg) (v : AxisValue) : (s.setCal sel v).prevDir = s.prevDir := by
  cases sel <;> rfl
@[simp] theorem State.setCal_prevPressed (s : State) (sel : CalReg) (v : AxisValue) : (s.setCal sel v).prevPressed = s.prevPressed := by
  cases sel <;> rfl
@[simp] theorem State.setCal_halted (s : State) (sel : CalReg) (v : AxisValue) : (s.setCal sel v).halted = s.halted := by
  cases sel <;> rfl
@[simp] theorem State.setCal_overrun (s : State) (sel : CalReg) (v : AxisValue) : (s.setCal sel v).overrun = s.overrun := by
  cases sel <;> rfl
@[simp] theorem State.setCal_refused (s : State) (sel : CalReg) (v : AxisValue) : (s.setCal sel v).refused = s.refused := by
  cases sel <;> rfl
@[simp] theorem State.setCal_cfg (s : State) (sel : CalReg) (v : AxisValue) : (s.setCal sel v).cfg = s.cfg := by
  cases sel <;> rfl
@[simp] theorem State.setCal_draws (s : State) (sel : CalReg) (v : AxisValue) : (s.setCal sel v).draws = s.draws := by
  cases sel <;> rfl
@[simp] theorem State.setCal_reply (s : State) (sel : CalReg) (v : AxisValue) : (s.setCal sel v).reply = s.reply := by
  cases sel <;> rfl
@[simp] theorem State.setCal_inbox (s : State) (sel : CalReg) (v : AxisValue) : (s.setCal sel v).inbox = s.inbox := by
  cases sel <;> rfl
@[simp] theorem State.setCal_turns (s : State) (sel : CalReg) (v : AxisValue) : (s.setCal sel v).turns = s.turns := by
  cases sel <;> rfl

/-! ### State.resetBlock -/

@[simp] theorem State.resetBlock_buf (s : State) : s.resetBlock.buf = [] := rfl
@[simp] theorem State.resetBlock_cursor (s : State) : s.resetBlock.cursor = 0 := rfl
@[simp] theorem State.resetBlock_snap (s : State) : s.resetBlock.snap = [] := rfl
@[simp] theorem State.resetBlock_snapLen (s : State) : s.resetBlock.snapLen = 0 := rfl
@[simp] theorem State.resetBlock_cmdReady (s : State) : s.resetBlock.cmdReady = false := rfl
@[simp] theorem State.resetBlock_calCx (s : State) : s.resetBlock.calCx = s.cfg.calCxRst := rfl
@[simp] theorem State.resetBlock_calCy (s : State) : s.resetBlock.calCy = s.cfg.calCyRst := rfl
@[simp] theorem State.resetBlock_calDz (s : State) : s.resetBlock.calDz = s.cfg.calDzRst := rfl
@[simp] theorem State.resetBlock_txQ (s : State) : s.resetBlock.txQ = [] := rfl
@[simp] theorem State.resetBlock_prevDir (s : State) : s.resetBlock.prevDir = .neutral := rfl
@[simp] theorem State.resetBlock_prevPressed (s : State) : s.resetBlock.prevPressed = false := rfl
@[simp] theorem State.resetBlock_halted (s : State) : s.resetBlock.halted = false := rfl
@[simp] theorem State.resetBlock_overrun (s : State) : s.resetBlock.overrun = false := rfl
@[simp] theorem State.resetBlock_refused (s : State) : s.resetBlock.refused = false := rfl
@[simp] theorem State.resetBlock_cfg (s : State) : s.resetBlock.cfg = s.cfg := rfl
@[simp] theorem State.resetBlock_draws (s : State) : s.resetBlock.draws = s.draws := rfl
@[simp] theorem State.resetBlock_reply (s : State) : s.resetBlock.reply = s.reply := rfl
@[simp] theorem State.resetBlock_inbox (s : State) : s.resetBlock.inbox = s.inbox := rfl
@[simp] theorem State.resetBlock_turns (s : State) : s.resetBlock.turns = s.turns := rfl

/-! ### State.passTurn -/

@[simp] theorem State.passTurn_buf (s : State) : s.passTurn.buf = s.buf := rfl
@[simp] theorem State.passTurn_cursor (s : State) : s.passTurn.cursor = s.cursor := rfl
@[simp] theorem State.passTurn_snap (s : State) : s.passTurn.snap = s.snap := rfl
@[simp] theorem State.passTurn_snapLen (s : State) : s.passTurn.snapLen = s.snapLen := rfl
@[simp] theorem State.passTurn_cmdReady (s : State) : s.passTurn.cmdReady = s.cmdReady := rfl
@[simp] theorem State.passTurn_calCx (s : State) : s.passTurn.calCx = s.calCx := rfl
@[simp] theorem State.passTurn_calCy (s : State) : s.passTurn.calCy = s.calCy := rfl
@[simp] theorem State.passTurn_calDz (s : State) : s.passTurn.calDz = s.calDz := rfl
@[simp] theorem State.passTurn_txQ (s : State) : s.passTurn.txQ = s.txQ := rfl
@[simp] theorem State.passTurn_prevDir (s : State) : s.passTurn.prevDir = s.prevDir := rfl
@[simp] theorem State.passTurn_prevPressed (s : State) : s.passTurn.prevPressed = s.prevPressed := rfl
@[simp] theorem State.passTurn_halted (s : State) : s.passTurn.halted = s.halted := rfl
@[simp] theorem State.passTurn_overrun (s : State) : s.passTurn.overrun = s.overrun := rfl
@[simp] theorem State.passTurn_refused (s : State) : s.passTurn.refused = s.refused := rfl
@[simp] theorem State.passTurn_cfg (s : State) : s.passTurn.cfg = s.cfg := rfl
@[simp] theorem State.passTurn_draws (s : State) : s.passTurn.draws = s.draws := rfl
@[simp] theorem State.passTurn_reply (s : State) : s.passTurn.reply = s.reply := rfl
@[simp] theorem State.passTurn_inbox (s : State) : s.passTurn.inbox = s.inbox := rfl
@[simp] theorem State.passTurn_turns (s : State) : s.passTurn.turns = s.turns.tail := rfl

/-! ### State.endTurn -/

@[simp] theorem State.endTurn_buf (s : State) (a : Agent) : (s.endTurn a).buf = s.buf := rfl
@[simp] theorem State.endTurn_cursor (s : State) (a : Agent) : (s.endTurn a).cursor = s.cursor := rfl
@[simp] theorem State.endTurn_snap (s : State) (a : Agent) : (s.endTurn a).snap = s.snap := rfl
@[simp] theorem State.endTurn_snapLen (s : State) (a : Agent) : (s.endTurn a).snapLen = s.snapLen := rfl
@[simp] theorem State.endTurn_cmdReady (s : State) (a : Agent) : (s.endTurn a).cmdReady = s.cmdReady := rfl
@[simp] theorem State.endTurn_calCx (s : State) (a : Agent) : (s.endTurn a).calCx = s.calCx := rfl
@[simp] theorem State.endTurn_calCy (s : State) (a : Agent) : (s.endTurn a).calCy = s.calCy := rfl
@[simp] theorem State.endTurn_calDz (s : State) (a : Agent) : (s.endTurn a).calDz = s.calDz := rfl
@[simp] theorem State.endTurn_txQ (s : State) (a : Agent) : (s.endTurn a).txQ = s.txQ := rfl
@[simp] theorem State.endTurn_prevDir (s : State) (a : Agent) : (s.endTurn a).prevDir = s.prevDir := rfl
@[simp] theorem State.endTurn_prevPressed (s : State) (a : Agent) : (s.endTurn a).prevPressed = s.prevPressed := rfl
@[simp] theorem State.endTurn_halted (s : State) (a : Agent) : (s.endTurn a).halted = s.halted := rfl
@[simp] theorem State.endTurn_overrun (s : State) (a : Agent) : (s.endTurn a).overrun = s.overrun := rfl
@[simp] theorem State.endTurn_refused (s : State) (a : Agent) : (s.endTurn a).refused = s.refused := rfl
@[simp] theorem State.endTurn_cfg (s : State) (a : Agent) : (s.endTurn a).cfg = s.cfg := rfl
@[simp] theorem State.endTurn_draws (s : State) (a : Agent) : (s.endTurn a).draws = s.draws := rfl
@[simp] theorem State.endTurn_reply (s : State) (a : Agent) : (s.endTurn a).reply = s.reply := rfl
@[simp] theorem State.endTurn_inbox (s : State) (a : Agent) :
    (s.endTurn a).inbox = if s.reply.waits then s.inbox else s.inbox.set a (s.inbox.get a).tail := rfl
@[simp] theorem State.endTurn_turns (s : State) (a : Agent) : (s.endTurn a).turns = s.turns.tail := rfl

/-! ### State.offer -/

@[simp] theorem State.offer_buf (s : State) (a : Agent) (w : EventWord) : (s.offer a w).buf = s.buf := rfl
@[simp] theorem State.offer_cursor (s : State) (a : Agent) (w : EventWord) : (s.offer a w).cursor = s.cursor := rfl
@[simp] theorem State.offer_snap (s : State) (a : Agent) (w : EventWord) : (s.offer a w).snap = s.snap := rfl
@[simp] theorem State.offer_snapLen (s : State) (a : Agent) (w : EventWord) : (s.offer a w).snapLen = s.snapLen := rfl
@[simp] theorem State.offer_cmdReady (s : State) (a : Agent) (w : EventWord) :
    (s.offer a w).cmdReady = s.cmdReady := rfl
@[simp] theorem State.offer_calCx (s : State) (a : Agent) (w : EventWord) : (s.offer a w).calCx = s.calCx := rfl
@[simp] theorem State.offer_calCy (s : State) (a : Agent) (w : EventWord) : (s.offer a w).calCy = s.calCy := rfl
@[simp] theorem State.offer_calDz (s : State) (a : Agent) (w : EventWord) : (s.offer a w).calDz = s.calDz := rfl
@[simp] theorem State.offer_txQ (s : State) (a : Agent) (w : EventWord) : (s.offer a w).txQ = s.txQ := rfl
@[simp] theorem State.offer_prevDir (s : State) (a : Agent) (w : EventWord) : (s.offer a w).prevDir = s.prevDir := rfl
@[simp] theorem State.offer_prevPressed (s : State) (a : Agent) (w : EventWord) :
    (s.offer a w).prevPressed = s.prevPressed := rfl
@[simp] theorem State.offer_halted (s : State) (a : Agent) (w : EventWord) : (s.offer a w).halted = s.halted := rfl
@[simp] theorem State.offer_overrun (s : State) (a : Agent) (w : EventWord) : (s.offer a w).overrun = s.overrun := rfl
@[simp] theorem State.offer_refused (s : State) (a : Agent) (w : EventWord) : (s.offer a w).refused = s.refused := rfl
@[simp] theorem State.offer_cfg (s : State) (a : Agent) (w : EventWord) : (s.offer a w).cfg = s.cfg := rfl
@[simp] theorem State.offer_draws (s : State) (a : Agent) (w : EventWord) : (s.offer a w).draws = s.draws := rfl
@[simp] theorem State.offer_reply (s : State) (a : Agent) (w : EventWord) : (s.offer a w).reply = s.reply := rfl
@[simp] theorem State.offer_inbox (s : State) (a : Agent) (w : EventWord) :
    (s.offer a w).inbox = s.inbox.set a (w :: s.inbox.get a) := rfl
@[simp] theorem State.offer_turns (s : State) (a : Agent) (w : EventWord) : (s.offer a w).turns = a :: s.turns := rfl

/-! ### The agents' words -/

theorem Inbox.get_set (q : Inbox) (a b : Agent) (ws : List EventWord) :
    (q.set a ws).get b = if b = a then ws else q.get b := by
  cases a <;> cases b <;> rfl

@[simp] theorem Inbox.get_set_self (q : Inbox) (a : Agent) (ws : List EventWord) : (q.set a ws).get a = ws := by
  cases a <;> rfl

@[simp] theorem Inbox.set_set (q : Inbox) (a : Agent) (ws ws' : List EventWord) :
    (q.set a ws).set a ws' = q.set a ws' := by
  cases a <;> rfl

@[simp] theorem Inbox.set_get (q : Inbox) (a : Agent) : q.set a (q.get a) = q := by
  cases a <;> rfl

/-- A word offered is the word the next step takes. -/
@[simp] theorem State.offered_offer (s : State) (a : Agent) (w : EventWord) : (s.offer a w).offered = some (a, w) := by
  simp [State.offered]

end Sys2Proof.Machine
end

