-- ==== Sys2Proof/Laws/Ops.lean ====
section
/-! SUPPORT. What each shared operation of Machine/Ops.lean can do, said once. -/

namespace Sys2Proof.Machine

open Sys2Proof

/-! ### Outcomes -/

@[simp] theorem andThen_next (s : State) (k : State → Host.Outcome State Fault Refusal) :
    andThen (.next s) k = k s := rfl

@[simp] theorem andThen_fault (f : Fault) (k : State → Host.Outcome State Fault Refusal) :
    andThen (.fault f) k = .fault f := rfl

@[simp] theorem andThen_refused (r : Refusal) (k : State → Host.Outcome State Fault Refusal) :
    andThen (.refused r) k = .refused r := rfl

/-- A sequence answers a next state through a next state of its first part. -/
theorem andThen_eq_next {o : Host.Outcome State Fault Refusal} {k : State → Host.Outcome State Fault Refusal} {t : State} :
    andThen o k = .next t ↔ ∃ s, o = .next s ∧ k s = .next t := by
  cases o <;> simp

theorem andThen_assoc (o : Host.Outcome State Fault Refusal) (k k' : State → Host.Outcome State Fault Refusal) :
    andThen (andThen o k) k' = andThen o fun s => andThen (k s) k' := by
  cases o <;> rfl

theorem whenRunning_halted {s : State} (h : s.halted = true) (k : Host.Outcome State Fault Refusal) :
    whenRunning s k = .next (s.answer .stuck) := by
  simp [whenRunning, h]

theorem whenRunning_running {s : State} (h : s.halted = false) (k : Host.Outcome State Fault Refusal) :
    whenRunning s k = k := by
  simp [whenRunning, h]

/-- An event other than RESET answers a next state: it is stuck, or its own effect answers it. -/
theorem whenRunning_eq_next {s t : State} {k : Host.Outcome State Fault Refusal} :
    whenRunning s k = .next t ↔
      (s.halted = true ∧ t = s.answer .stuck) ∨ (s.halted = false ∧ k = .next t) := by
  cases h : s.halted <;> simp [whenRunning, h, eq_comm]

/-! ### The framer's operations -/

/-- When the line is complete (40_framer.md R100). -/
theorem lineComplete_iff {d : Byte} {cursor : Nat} : lineComplete d cursor = true ↔ d = 0x0A ∨ cursor = 99 := by
  simp [lineComplete, term, maxLen]

/-- A store inside the line buffer answers the buffer with that byte written. -/
theorem State.storeLine_eq {s : State} {i : Nat} (b : Byte) (h : i < 100) :
    s.storeLine i b = .next { s with buf := s.buf.write i b } := by
  simp [State.storeLine, capacity, h]

/-- All that a store in the line buffer can answer. -/
theorem State.storeLine_eq_next {s t : State} {i : Nat} {b : Byte} :
    s.storeLine i b = .next t ↔ i < 100 ∧ t = { s with buf := s.buf.write i b } := by
  by_cases h : i < 100 <;> simp [State.storeLine, capacity, h, eq_comm]

theorem State.appendByte_eq {s : State} (d : Byte) (h : s.cursor < 100) :
    s.appendByte d = .next { s with buf := s.buf.write s.cursor d, cursor := s.cursor + 1 } := by
  simp [State.appendByte, State.storeLine_eq d h]

/-- All that appending a byte can answer. -/
theorem State.appendByte_eq_next {s t : State} {d : Byte} :
    s.appendByte d = .next t ↔
      s.cursor < 100 ∧ t = { s with buf := s.buf.write s.cursor d, cursor := s.cursor + 1 } := by
  simp only [State.appendByte, andThen_eq_next, State.storeLine_eq_next]
  constructor
  · rintro ⟨_, ⟨h, rfl⟩, ht⟩
    exact ⟨h, (Host.Outcome.next.inj ht).symm⟩
  · rintro ⟨h, rfl⟩
    exact ⟨_, ⟨h, rfl⟩, rfl⟩

theorem State.completeLine_eq {s : State} (h : s.cursor ≤ 99) :
    s.completeLine = .next (State.publish { s with buf := s.buf.write s.cursor 0x00 }) := by
  rw [State.completeLine, State.storeLine_eq 0x00 (Nat.lt_succ_of_le h)]
  exact if_pos h

/-- All that a line completion can answer. -/
theorem State.completeLine_eq_next {s t : State} :
    s.completeLine = .next t ↔
      s.cursor ≤ 99 ∧ t = State.publish { s with buf := s.buf.write s.cursor 0x00 } := by
  simp only [State.completeLine, andThen_eq_next, State.storeLine_eq_next]
  constructor
  · rintro ⟨_, ⟨-, rfl⟩, ht⟩
    split at ht
    · exact ⟨by assumption, (Host.Outcome.next.inj ht).symm⟩
    · cases ht
  · rintro ⟨h, rfl⟩
    exact ⟨_, ⟨by omega, rfl⟩, if_pos h⟩

/-- All that a read inside the snapshot can answer. -/
theorem State.answerSnap_eq_next {s t : State} {i : Nat} :
    s.answerSnap i = .next t ↔
      i < 99 ∧ ((∃ b, s.snap.read i = some b ∧ t = s.answer (.byte b)) ∨ (s.snap.read i = none ∧ t = s.answerDraw)) := by
  unfold State.answerSnap maxLen
  by_cases h : i < 99
  · cases hb : s.snap.read i <;> simp [h, eq_comm]
  · simp [h]

/-! ### The gate's operations -/

/-- The bytes a tick queues are a direction frame or none, and then a button frame or none. -/
theorem State.tickBytes_cases (s : State) (d : Direction) (p : Bool) :
    ∃ sendD sendB : Bool, (sendB = true → p = true) ∧
      s.tickBytes d p = (if sendD then dirFrame d else []) ++ (if sendB then buttonFrame else []) := by
  refine ⟨_, sendsButton s.cfg.txTrigger s.prevPressed p, ?_, rfl⟩
  unfold sendsButton
  cases s.cfg.txTrigger <;> simp_all

/-! ### The step -/

/-- All that a step can answer: a turn passed, a word refused, or an event's own next state with the turn ended. -/
theorem step_eq_next {s t : State} (h : step s = .next t) :
    (s.offered = none ∧ t = s.passTurn) ∨
    (∃ a w r, s.offered = some (a, w) ∧ decode s.cfg.axisW w = .illegal r ∧ t = (s.refuse r w).endTurn a) ∨
    (∃ a w i u, s.offered = some (a, w) ∧ decode s.cfg.axisW w = .event i ∧ exec i s = .next u ∧ t = u.endTurn a) := by
  unfold step at h
  split at h
  · exact .inl ⟨by assumption, (Host.Outcome.next.inj h).symm⟩
  · next a w ho =>
    split at h
    · next r hd => exact .inr (.inl ⟨a, w, r, ho, hd, (Host.Outcome.next.inj h).symm⟩)
    · next i hd =>
      obtain ⟨u, hu, ht⟩ := andThen_eq_next.mp h
      exact .inr (.inr ⟨a, w, i, u, ho, hd, hu, (Host.Outcome.next.inj ht).symm⟩)

end Sys2Proof.Machine
end

