-- ==== Sys2Proof/Laws/PerInstr.lean ====
section
/-! SUPPORT. The statement made of every event as syntax, one lemma a constructor: its word's `OP` field is the number
that 30_encoding.md R74 gives it. -/

namespace Sys2Proof.Laws.OpNumber

open Sys2Proof

/-- The `OP` number of an event in the map of 30_encoding.md R74. -/
def number : Instr → BitVec 4
  | .rxByte _ => 0x1
  | .statusRead => 0x2
  | .snapRead _ => 0x3
  | .cmdAck => 0x4
  | .tick _ _ _ => 0x5
  | .classify _ _ _ => 0x6
  | .txAccept => 0x7
  | .calWrite _ _ => 0x8
  | .halt => 0x9
  | .reset => 0xA

/-- The encoder writes the `OP` number of R74 in bits 63:60. -/
def Statement (i : Instr) : Prop := opField (encode i) = number i

theorem rxByte (d : Byte) : Statement (.rxByte d) :=
  (fieldAbove 56 8 (by decide)).trans rfl

theorem statusRead : Statement .statusRead := rfl

theorem snapRead (idx : BitVec 7) : Statement (.snapRead idx) :=
  (fieldAbove 57 7 (by decide)).trans rfl

theorem cmdAck : Statement .cmdAck := rfl

theorem tick (x y : AxisValue) (btn : Bool) : Statement (.tick x y btn) :=
  (fieldAbove 48 16 (by decide)).trans ((fieldAbove 32 16 (by decide)).trans ((fieldAbove 31 1 (by decide)).trans rfl))

theorem classify (x y : AxisValue) (btn : Bool) : Statement (.classify x y btn) :=
  (fieldAbove 48 16 (by decide)).trans ((fieldAbove 32 16 (by decide)).trans ((fieldAbove 31 1 (by decide)).trans rfl))

theorem txAccept : Statement .txAccept := rfl

theorem calWrite (sel : CalReg) (v : AxisValue) : Statement (.calWrite sel v) :=
  (fieldAbove 48 16 (by decide)).trans ((fieldAbove 32 16 (by decide)).trans ((fieldAbove 30 2 (by decide)).trans rfl))

theorem halt : Statement .halt := rfl

theorem reset : Statement .reset := rfl

end Sys2Proof.Laws.OpNumber
end

