-- ==== Sys2Proof/Laws/Runs.lean ====
section
/-! SUPPORT. What the outcomes' codes are, and how a list of events runs in parts. -/

namespace Sys2Proof.Machine

open Sys2Proof

/-! ### Outcome codes (60_exceptions.md R201) -/

@[simp] theorem Reply.code_noReply : Reply.noReply.code = none := rfl
@[simp] theorem Reply.code_done : Reply.done.code = none := rfl
@[simp] theorem Reply.code_status (v : BitVec 16) : (Reply.status v).code = none := rfl
@[simp] theorem Reply.code_byte (v : Byte) : (Reply.byte v).code = none := rfl
@[simp] theorem Reply.code_classified (v : BitVec 4) : (Reply.classified v).code = none := rfl
@[simp] theorem Reply.code_hold_txBusy : (Reply.hold .txBusy).code = some 32 := rfl
@[simp] theorem Reply.code_hold_txEmpty : (Reply.hold .txEmpty).code = some 33 := rfl
@[simp] theorem Reply.code_stuck : Reply.stuck.code = some 16 := rfl
@[simp] theorem Reply.code_refused (r : RefuseReason) (w : EventWord) : (Reply.refused r w).code = some r.code := rfl

/-! ### Lists of events (R217; log 18) -/

@[simp] theorem runEvents_nil (s : State) : runEvents [] s = .next s := rfl

@[simp] theorem runEvents_cons (i : Instr) (is : List Instr) (s : State) :
    runEvents (i :: is) s = andThen (exec i s) (runEvents is) := rfl

/-- A list of events runs in parts. -/
theorem runEvents_append (is js : List Instr) (s : State) :
    runEvents (is ++ js) s = andThen (runEvents is s) (runEvents js) := by
  induction is generalizing s with
  | nil => rfl
  | cons i is ih =>
    simp only [List.cons_append, runEvents_cons, andThen_assoc]
    exact congrArg (andThen (exec i s)) (funext ih)

/-- Bytes are received in parts. -/
theorem receive_append (l l' : List Byte) (s : State) :
    receive (l ++ l') s = andThen (receive l s) (receive l') := by
  rw [receive, List.map_append, runEvents_append]
  rfl

end Sys2Proof.Machine
end

