-- ==== Sys2Proof/Tests/Slice0.lean ====
section
/-! SUPPORT. The model's own tests. Expected values are from the vectors of 95_test_vectors.md, or from the encoding rules
of 30_encoding.md; each test names its vector. The witnesses at the end show that the statements' hypotheses can be met. -/

namespace Sys2Proof.Tests

open Sys2Proof Sys2Proof.Machine

/-! ### States -/

/-- The calibration that the vectors start from: (2048, 2048, 500). -/
def running : State := { State.reset with calCx := 2048, calCy := 2048, calDz := 500 }

/-- The same block with the EDGE policy. -/
def edgy : State := { running with cfg := { Config.default with txTrigger := .edge } }

/-- An Up frame and a button frame are queued (vector T7). -/
def busy : State := { running with txQ := [0x55, 0x0D, 0x0A, 0x42, 0x0D, 0x0A] }

/-- The line F:42 with its line feed is signalled (program P1, after step 5). -/
def signalled : State :=
  { running with snap := [(0, 0x46), (1, 0x3A), (2, 0x34), (3, 0x32), (4, 0x0A)], snapLen := 5, cmdReady := true }

/-- Ninety-eight bytes of the line are received (vector F4). -/
def nearlyFull : State := { running with buf := (List.range 98).map (fun k => (k, 0x41)), cursor := 98 }

/-- The halted block. -/
def stopped : State := { running with halted := true }

/-- A field of the next state, if there is one. -/
def after {α : Type} (o : Host.Outcome State Fault Refusal) (f : State → α) : Option α :=
  match o with
  | .next t => some (f t)
  | .fault _ => none
  | .refused _ => none

/-! ### Well-formedness: an ill-formed term for each check (R76, R77, R78) -/

theorem test_index_99_is_ill_formed : (Instr.snapRead 99).wellFormed .w12 = false := by decide
theorem test_tick_x_4096_is_ill_formed : (Instr.tick 4096 0 true).wellFormed .w12 = false := by decide
theorem test_tick_y_4096_is_ill_formed : (Instr.tick 0 4096 true).wellFormed .w12 = false := by decide
theorem test_classify_x_8192_is_ill_formed : (Instr.classify 8192 0 true).wellFormed .w13 = false := by decide
theorem test_classify_y_8192_is_ill_formed : (Instr.classify 0 8192 true).wellFormed .w13 = false := by decide
theorem test_cal_value_4096_is_ill_formed : (Instr.calWrite .dz 4096).wellFormed .w12 = false := by decide
theorem test_configured_centre_4096_is_ill_formed : { Config.default with calCxRst := 4096 }.wf = false := by decide

/-! ### Decoding: one word for each event, written out from R75 to R79 -/

theorem test_decode_rxByte : decode .w12 0x10000000000000A5 = .event (.rxByte 0xA5) := by decide
theorem test_decode_statusRead : decode .w12 0x2000000000000000 = .event .statusRead := by decide
theorem test_decode_snapRead : decode .w12 0x3000000000000004 = .event (.snapRead 4) := by decide
theorem test_decode_cmdAck : decode .w12 0x4000000000000000 = .event .cmdAck := by decide
theorem test_decode_tick : decode .w12 0x500000000BB80800 = .event (.tick 0x800 0xBB8 false) := by decide
theorem test_decode_classify : decode .w12 0x60000001080009F5 = .event (.classify 0x9F5 0x800 true) := by decide
theorem test_decode_txAccept : decode .w12 0x7000000000000000 = .event .txAccept := by decide
theorem test_decode_calWrite_cx : decode .w12 0x8000000000000800 = .event (.calWrite .cx 2048) := by decide
theorem test_decode_calWrite_dz : decode .w12 0x80000002000001F4 = .event (.calWrite .dz 500) := by decide
theorem test_decode_halt : decode .w12 0x9000000000000000 = .event .halt := by decide
theorem test_decode_reset : decode .w12 0xA000000000000000 = .event .reset := by decide
theorem test_decode_op_0 : decode .w12 0x0000000000000000 = .illegal .reservedOp := by decide
theorem test_decode_op_B : decode .w12 0xB000000000000000 = .illegal .reservedOp := by decide
theorem test_decode_rx_bit_8 : decode .w12 0x1000000000000146 = .illegal .nonzeroReservedBits := by decide
theorem test_decode_tick_bit_33 : decode .w12 0x5000000200000000 = .illegal .nonzeroReservedBits := by decide
/-- SEL = 3 with V out of range: the reserved number comes first in R80's list. -/
theorem test_decode_sel_before_value : decode .w12 0x8000000300001000 = .illegal .reservedSel := by decide
theorem test_decodeTableWord_classify : decodeTableWord 64 0x60000001080009F5 = some (.classify 2549 2048 true) := by
  decide
theorem test_encode_tick : encode (.tick 2549 2048 true) = 0x50000001080009F5 := by decide
theorem test_encode_calWrite : encode (.calWrite .cy 2048) = 0x8000000100000800 := by decide

/-! ### Events -/

/-- Vector F1. -/
theorem test_rxByte_line_feed : after (exec (.rxByte 0x0A) running)
    (fun t => (t.snap, t.snapLen, t.cmdReady, t.cursor, t.overrun)) = some ([(0, 0x0A)], 1, true, 0, false) := by decide
/-- Vector F4's 99th byte, here one that is no line feed (R106). -/
theorem test_rxByte_99th : after (exec (.rxByte 0x41) nearlyFull)
    (fun t => (t.snapLen, t.cursor, t.snap.read 98, t.buf.read 99)) = some (99, 0, some 0x41, some 0x00) := by decide
/-- Program P1, step 6. -/
theorem test_statusRead_line : after (exec .statusRead signalled) State.reply = some (.status 0x0501) := by decide
/-- Program P2, step 5. -/
theorem test_statusRead_busy : after (exec .statusRead busy) State.reply = some (.status 0x0002) := by decide
/-- Program P1, step 10. -/
theorem test_snapRead_inside : after (exec (.snapRead 3) signalled) State.reply = some (.byte 0x32) := by decide
/-- Vector F9: any byte, as the first draw. -/
theorem test_snapRead_beyond : after (exec (.snapRead 5) signalled) State.draws = some 1 := by decide
/-- Vector F8. -/
theorem test_cmdAck : after (exec .cmdAck signalled) (fun t => (t.cmdReady, t.snapLen)) = some (false, 5) := by decide
/-- Vector T7. -/
theorem test_tick_level : after (exec (.tick 2048 3000 false) running) State.txQ =
    some [0x55, 0x0D, 0x0A, 0x42, 0x0D, 0x0A] := by decide
/-- Vector T14: the button is still held, so no button frame. -/
theorem test_tick_edge : after (exec (.tick 2549 2048 false) { edgy with prevPressed := true })
    (fun t => (t.txQ, t.prevDir)) = some ([0x52, 0x0D, 0x0A], .right) := by decide
/-- Vector K15. -/
theorem test_classify_corner : after (exec (.classify 0 0 false) running) State.reply = some (.classified 0xB) := by
  decide
/-- Vector K18: cx - dz is negative, so x = 0 is not Left. -/
theorem test_classify_negative_threshold : after (exec (.classify 0 2048 true) { running with calCx := 100 }) State.reply =
    some (.classified 0x0) := by decide
/-- Vector T10. -/
theorem test_txAccept_head : after (exec .txAccept busy) (fun t => (t.reply, t.txQ)) =
    some (.byte 0x55, [0x0D, 0x0A, 0x42, 0x0D, 0x0A]) := by decide
/-- Vector T9. -/
theorem test_txAccept_empty : after (exec .txAccept running) State.reply = some (.hold .txEmpty) := by decide
/-- Vector X1: cal dz 300, then the classification of (2349, 2048). -/
theorem test_calWrite_dz : after (runEvents [.calWrite .dz 300, .classify 2349 2048 true] running) State.reply =
    some (.classified 0x4) := by decide
/-- Vector X6. -/
theorem test_halt_twice : after (runEvents [.halt, .halt] running) (fun t => (t.halted, t.reply)) =
    some (true, .stuck) := by decide
/-- Vector X5. -/
theorem test_reset_of_halted : after (runEvents [.reset, .statusRead] stopped) State.reply = some (.status 0x0000) := by
  decide

/-- The codes of R201's table, in its order. -/
theorem test_outcome_codes : ([.refused .reservedOp 0, .refused .nonzeroReservedBits 0, .refused .indexRange 0,
    .refused .sampleRange 0, .refused .reservedSel 0, .refused .valueRange 0, .stuck, .hold .txBusy, .hold .txEmpty] :
    List Reply).map Reply.code = [some 1, some 2, some 3, some 4, some 5, some 6, some 16, some 32, some 33] := by decide

/-! ### Steps -/

/-- Vector X7: a refused word sets the mark. -/
theorem test_step_refused : after (step (running.withFetchWord 64 0xF000000000000000)) (fun t => (t.refused, t.reply)) =
    some (true, .refused .reservedOp 0xF000000000000000) := by decide
/-- Vector T8: the second TICK is held, and its word stays with the ticker. -/
theorem test_step_hold : after (step (busy.withFetchWord 64 0x5000000108000800))
    (fun t => (t.reply, t.inbox.ticker, t.turns)) = some (.hold .txBusy, [0x5000000108000800], []) := by decide
/-- Vector F12: the received byte has no step, and the cursor is frozen. -/
theorem test_step_stuck : after (step ({ stopped with cursor := 3 }.withFetchWord 64 0x1000000000000032))
    (fun t => (t.reply, t.cursor, t.inbox.rx)) = some (.stuck, 3, [0x1000000000000032]) := by decide
/-- From State.reset, a word of the table is the first event to run. -/
theorem test_step_first_event : after (step (State.reset.withFetchWord 64 0x1000000000000046))
    (fun t => (t.buf, t.cursor, t.inbox.rx)) = some ([(0, 0x46)], 1, []) := by decide

/-! ### Witnesses: the hypotheses of each statement can be met together -/

theorem witness_DecodeOfEncodeIsTheEvent :
    (Instr.snapRead 98).wellFormed .w12 = true ∧ (Instr.tick 4095 4095 false).wellFormed .w12 = true ∧
      (Instr.calWrite .dz 65535).wellFormed .w16 = true := by decide
theorem witness_DecodedWordIsTheEncodingOfItsEvent : decode .w16 0x60000001FFFF8000 = .event (.classify 0x8000 0xFFFF true) := by
  decide
theorem witness_StepRunsTheOfferedEvent :
    let s := running.offer .consumer 0x4000000000000000
    s.turns = [.consumer] ∧ s.inbox.get .consumer = [0x4000000000000000] ∧
      decode s.cfg.axisW 0x4000000000000000 = .event .cmdAck ∧ ∃ t, exec .cmdAck s = .next t :=
  ⟨rfl, rfl, by decide, _, rfl⟩
theorem witness_RefusedWordSetsOnlyTheRefusedMark :
    let s := stopped.offer .host 0xF000000000000000
    s.turns = [.host] ∧ s.inbox.get .host = [0xF000000000000000] ∧
      decode s.cfg.axisW 0xF000000000000000 = .illegal .reservedOp :=
  ⟨rfl, rfl, by decide⟩
theorem witness_RefusedWordSetsOnlyTheRefusedMark_mark :
    ∃ t, { running with refused := true }.refused = true ∧ step { running with refused := true } = .next t := ⟨_, rfl, rfl⟩
theorem witness_StepWithoutAnEventPassesTheTurn :
    running.turns = [] ∧ { running with turns := [.link] }.inbox.get .link = [] := by decide
theorem witness_WaitingEventChangesNothingAndStays :
    let s := busy.offer .ticker 0x5000000108000800
    s.offered = some (.ticker, 0x5000000108000800) ∧
      decode s.cfg.axisW 0x5000000108000800 = .event (.tick 2048 2048 true) ∧
      ∃ t, exec (.tick 2048 2048 true) s = .next t ∧ t.reply.waits = true :=
  ⟨rfl, by decide, _, rfl, rfl⟩
theorem witness_OnlyTickAndAcceptHold :
    (∃ t, exec (.tick 0 0 true) busy = .next t ∧ t.reply = .hold .txBusy) ∧
      ∃ t, exec .txAccept running = .next t ∧ t.reply = .hold .txEmpty := ⟨⟨_, rfl, rfl⟩, _, rfl, rfl⟩
theorem witness_HaltedBlockStepsOnlyByReset :
    stopped.halted = true ∧ Instr.statusRead ≠ .reset ∧ ∃ t, step stopped = .next t := ⟨rfl, by decide, _, rfl⟩
theorem witness_ConfigurationIsFixedForARun :
    ∃ t, Host.Core.run Sys2Proof.core 1 (running.offer .host 0x8000000000000800) = .next t := ⟨_, rfl⟩
theorem witness_RxByteInsideALineOnlyAppends :
    let s := { running with cursor := 97 }
    s.halted = false ∧ s.cursor < 98 ∧ (0x0D : Byte) ≠ 0x0A := by decide
theorem witness_RxByteCompletesTheLine_line_feed :
    signalled.halted = false ∧ signalled.cursor ≤ 98 ∧ ((0x0A : Byte) = 0x0A ∨ signalled.cursor = 98) := by decide
theorem witness_RxByteCompletesTheLine_99th :
    nearlyFull.halted = false ∧ nearlyFull.cursor ≤ 98 ∧ ((0x41 : Byte) = 0x0A ∨ nearlyFull.cursor = 98) := by decide
theorem witness_StatusReadReturnsTheStatusWord : signalled.halted = false := rfl
theorem witness_SnapReadReturnsTheSnapshotByteOrADraw_inside :
    signalled.halted = false ∧ (4 : BitVec 7).toNat ≤ 98 ∧ (4 : BitVec 7).toNat < signalled.snapLen ∧
      signalled.snap.read (4 : BitVec 7).toNat = some 0x0A := by decide
theorem witness_SnapReadReturnsTheSnapshotByteOrADraw_beyond :
    signalled.halted = false ∧ (5 : BitVec 7).toNat ≤ 98 ∧ signalled.snapLen ≤ (5 : BitVec 7).toNat ∧
      signalled.snapLen ≤ (98 : BitVec 7).toNat := by decide
theorem witness_CmdAckClearsOnlyTheFlag :
    signalled.halted = false ∧ stopped.halted = true ∧ running.halted = false ∧ running.cmdReady = false := by decide
theorem witness_ReceivedLineBecomesTheSnapshot :
    running.halted = false ∧ running.cursor = 0 ∧ isLine [0x41, 0x0A] ∧ isLine (List.replicate 98 0x41 ++ [0x42]) :=
  ⟨rfl, rfl, ⟨by decide, [0x41], 0x0A, rfl, by decide, .inl rfl⟩,
    ⟨by decide, List.replicate 98 0x41, 0x42, rfl, by decide, .inr (by decide)⟩⟩
theorem witness_UnfinishedLineProducesNothing :
    running.halted = false ∧ running.cursor = 0 ∧ (List.replicate 98 (0x41 : Byte)).length < 99 ∧
      ∀ b ∈ List.replicate 98 (0x41 : Byte), b ≠ 0x0A := by decide
theorem witness_OverlongRunGivesTwoLines :
    running.halted = false ∧ running.cursor = 0 ∧ (List.replicate 99 (0x41 : Byte)).length = 99 ∧
      ∀ b ∈ List.replicate 99 (0x41 : Byte), b ≠ 0x0A := by decide
theorem witness_SignalledLineStaysUntilAcknowledged :
    ∃ t, runEvents [.rxByte 0x41, .statusRead, .snapRead 0] signalled = .next t ∧ signalled.cmdReady = true ∧
      (∀ e ∈ [Instr.rxByte 0x41, .statusRead, .snapRead 0], e ≠ .cmdAck ∧ e ≠ .reset) ∧ t.overrun = false :=
  ⟨_, rfl, rfl, by decide, rfl⟩
theorem witness_ReadyFlagHasOneSetterAndOneClearer :
    (∃ t, exec (.rxByte 0x0A) running = .next t ∧ running.cmdReady = false ∧ t.cmdReady = true ∧
      running.completes (.rxByte 0x0A)) ∧
      ∃ t, exec .cmdAck signalled = .next t ∧ signalled.cmdReady = true ∧ t.cmdReady = false :=
  ⟨⟨_, rfl, rfl, rfl, 0x0A, rfl, .inl rfl⟩, _, rfl, rfl, rfl⟩
theorem witness_OverrunMarksACompletionOverAnUnreadLine :
    ∃ t, exec (.rxByte 0x0A) signalled = .next t ∧ Instr.rxByte 0x0A ≠ .reset ∧ signalled.halted = false ∧
      signalled.cmdReady = true ∧ signalled.completes (.rxByte 0x0A) :=
  ⟨_, rfl, by decide, rfl, rfl, 0x0A, rfl, .inl rfl⟩
theorem witness_SnapshotIsWrittenOnlyByACompletion :
    ∃ t, exec .cmdAck signalled = .next t ∧ Instr.cmdAck ≠ .reset ∧ (∀ d, Instr.cmdAck ≠ .rxByte d) ∧
      ¬ signalled.completes .cmdAck :=
  ⟨_, rfl, by decide, fun _ => Instr.noConfusion, fun ⟨_, h, _⟩ => Instr.noConfusion h⟩
theorem witness_ClassifyReturnsDirectionAndPressed : running.halted = false := rfl
theorem witness_HorizontalHasPriority :
    ((2549 : AxisValue).toNat : Int) > (2048 : AxisValue).toNat + (500 : AxisValue).toNat ∧
      ((1547 : AxisValue).toNat : Int) < (2048 : AxisValue).toNat - (500 : AxisValue).toNat ∧
      direction 2548 2549 2048 2048 500 = .up ∧ direction 1548 1547 2048 2048 500 = .down := by decide
theorem witness_ReadsHaveNoSideEffect : ∃ t, exec .statusRead busy = .next t := ⟨_, rfl⟩
theorem witness_LevelTickSendsWhileTheConditionHolds :
    running.halted = false ∧ running.txQ = [] ∧ running.cfg.txTrigger = .level := by decide
theorem witness_EdgeTickSendsOnEntry : edgy.halted = false ∧ edgy.txQ = [] ∧ edgy.cfg.txTrigger = .edge := by decide
theorem witness_TickHoldsWhileBytesAreQueued : busy.halted = false ∧ busy.txQ ≠ [] := by decide
theorem witness_TxAcceptTakesTheHead :
    busy.halted = false ∧ busy.txQ = 0x55 :: [0x0D, 0x0A, 0x42, 0x0D, 0x0A] ∧ running.halted = false ∧ running.txQ = [] ∧
      stopped.halted = true := by decide
theorem witness_TickQueuesZeroThreeOrSixBytes :
    ∃ t, exec (.tick 2048 3000 false) running = .next t ∧ t.reply = .done := ⟨_, rfl, rfl⟩
theorem witness_LinkTakesTheQueuedBytesInOrder : busy.halted = false ∧ busy.txQ[5]? = some 0x0A := by decide
theorem witness_RepeatedSampleSendsAgainOnlyInLevelMode :
    (∃ t, running.halted = false ∧ running.txQ = [] ∧ exec (.tick 2549 2048 true) running = .next t) ∧
      ∃ t, edgy.halted = false ∧ edgy.txQ = [] ∧ exec (.tick 2549 2048 true) edgy = .next t :=
  ⟨⟨_, rfl, rfl, rfl⟩, _, rfl, rfl, rfl⟩
theorem witness_LevelModeIgnoresThePreviousTick :
    ∃ t, running.cfg.txTrigger = .level ∧ exec (.tick 2549 2048 true) running = .next t := ⟨_, rfl, rfl⟩
theorem witness_EveryReturningTickRecordsItsResult :
    (∃ t, exec (.tick 2549 2048 true) edgy = .next t ∧ t.reply = .done) ∧
      ∃ t, exec .halt edgy = .next t ∧ Instr.halt ≠ .reset ∧ ∀ x y btn, Instr.halt ≠ .tick x y btn :=
  ⟨⟨_, rfl, rfl⟩, _, rfl, by decide, fun _ _ _ => Instr.noConfusion⟩
theorem witness_GateAndFramerAreIndependent :
    (∃ t, exec .txAccept busy = .next t) ∧ ∃ t, exec (.rxByte 0x0A) busy = .next t := ⟨⟨_, rfl⟩, _, rfl⟩
theorem witness_ReceiveAndTransmitCommute : busy.halted = false ∧ busy.cursor ≤ 98 ∧ busy.txQ ≠ [] := by decide
theorem witness_CalWriteWritesOneRegister : busy.halted = false := rfl
theorem witness_CalibrationIsWrittenOnlyByCalWrite :
    ∃ t, exec .halt running = .next t ∧ Instr.halt ≠ .reset ∧ ∀ sel v, Instr.halt ≠ .calWrite sel v :=
  ⟨_, rfl, by decide, fun _ _ => Instr.noConfusion⟩
theorem witness_HaltSetsOnlyTheHaltedBit : busy.halted = false ∧ stopped.halted = true := by decide
theorem witness_ResetForgetsThePast :
    signalled.cfg = busy.cfg ∧ signalled.draws = busy.draws ∧ signalled.inbox = busy.inbox ∧
      signalled.turns = busy.turns ∧ signalled ≠ busy := by decide

/-- A state with a line in progress, a signalled line and a busy gate meets the invariant, and a step leaves it. -/
def inUse : State :=
  { signalled with
    buf := [(0, 0x45), (1, 0x00)], cursor := 1, txQ := [0x0D, 0x0A, 0x42, 0x0D, 0x0A], prevDir := .up, prevPressed := true
    turns := [.link], inbox := { State.reset.inbox with link := [0x7000000000000000] } }

theorem witness_StepKeepsTheInvariant : inUse.Inv ∧ ∃ t, step inUse = .next t := by
  refine ⟨⟨by decide, by decide, by decide, by decide, by decide, ?_, by decide, ?_, by decide, by decide, by decide,
    true, by decide, by decide⟩, _, rfl⟩
  · intro i hi
    have : i = 0 := Nat.lt_one_iff.mp hi
    subst this
    exact ⟨0x45, by decide⟩
  · intro i hi
    have hi : i < 5 := hi
    match i, hi with
    | 0, _ => exact ⟨0x46, by decide⟩
    | 1, _ => exact ⟨0x3A, by decide⟩
    | 2, _ => exact ⟨0x34, by decide⟩
    | 3, _ => exact ⟨0x32, by decide⟩
    | 4, _ => exact ⟨0x0A, by decide⟩

theorem witness_StepNeverStops : inUse.Inv := witness_StepKeepsTheInvariant.1

theorem witness_StepRecordsTheListedOutcomeCode_refused :
    let s := stopped.offer .host 0x8000000300001000
    s.offered = some (.host, 0x8000000300001000) ∧ decode s.cfg.axisW 0x8000000300001000 = .illegal .reservedSel ∧
      ∃ t, step s = .next t :=
  ⟨rfl, by decide, _, rfl⟩
theorem witness_StepRecordsTheListedOutcomeCode_stuck :
    let s := stopped.offer .link 0x7000000000000000
    s.offered = some (.link, 0x7000000000000000) ∧ decode s.cfg.axisW 0x7000000000000000 = .event .txAccept ∧
      s.halted = true ∧ ∃ t, step s = .next t :=
  ⟨rfl, by decide, rfl, _, rfl⟩
theorem witness_StepRecordsTheListedOutcomeCode_holds :
    (∃ t, step (busy.offer .ticker 0x5000000108000800) = .next t ∧ t.reply.code = some 32) ∧
      ∃ t, step (running.offer .link 0x7000000000000000) = .next t ∧ t.reply.code = some 33 :=
  ⟨⟨_, rfl, rfl⟩, _, rfl, rfl⟩
theorem witness_AcknowledgedLineMakesRoomForTheNext :
    running.halted = false ∧ running.cursor = 0 ∧ running.cmdReady = false ∧ isLine [0x0A] ∧
      isLine (List.replicate 98 0x41 ++ [0x42]) :=
  ⟨rfl, rfl, rfl, ⟨by decide, [], 0x0A, rfl, by decide, .inl rfl⟩,
    ⟨by decide, List.replicate 98 0x41, 0x42, rfl, by decide, .inr (by decide)⟩⟩

end Sys2Proof.Tests
end

section
/-! PROOFS. What the block's bookkeeping shows (10_state.md): the STATUS word (R35) and the overrun mark (R26). -/

namespace Sys2Proof.Machine

open Sys2Proof

/-! ### The STATUS word -/

/-- Every bit of the STATUS word, in the order of R35's table from the lowest field up. -/
theorem statusWord_getLsbD (n : Nat) (busy ready : Bool) (k : Nat) :
    (statusWord n busy ready).getLsbD k =
      if k = 0 then ready else if k = 1 then busy else if k < 8 then false
      else if k < 15 then n.testBit (k - 8) else false := by
  unfold statusWord
  simp only [BitVec.getLsbD_append, BitVec.getLsbD_ofBool, BitVec.getLsbD_ofNat]
  grind

/-- What a running block answers to STATUS_READ (R103). -/
theorem exec_statusRead_running {s : State} (h : s.halted = false) :
    exec .statusRead s = .next (s.answer (.status (statusWord s.snapLen (!s.txQ.isEmpty) s.cmdReady))) :=
  whenRunning_running h _

/-- Settles O14: the word answered is `statusWord`, and each row of R35's table is one branch of `statusWord_getLsbD`. -/
theorem statusReadReturnsTheStatusWord : Obligations.StatusReadReturnsTheStatusWord := by
  intro s hs
  refine ⟨_, exec_statusRead_running hs, statusWord_getLsbD _ _ _ 0, ?busy, ?reserved, ?len, statusWord_getLsbD _ _ _ 15⟩
  case busy =>
    rw [statusWord_getLsbD]
    cases s.txQ <;> rfl
  case reserved =>
    intro k hlo hhi
    rw [statusWord_getLsbD, if_neg (by omega), if_neg (by omega), if_pos (by omega)]
  case len =>
    intro k hk
    rw [statusWord_getLsbD, if_neg (by omega), if_neg (by omega), if_neg (by omega), if_pos (by omega),
      Nat.add_sub_cancel_left]

/-! ### RX_BYTE -/

theorem State.completes_rxByte {s : State} {d : Byte} : s.completes (.rxByte d) ↔ d = 0x0A ∨ s.cursor = 98 := by
  simp [State.completes]

/-- Only RX_BYTE completes a line (R100). -/
theorem State.not_completes {s : State} {i : Instr} (h : ∀ d, i ≠ .rxByte d) : ¬ s.completes i :=
  fun ⟨d, hd, _⟩ => h d hd

/-- RX_BYTE's test, made on the advanced cursor, is the completion condition. -/
theorem lineComplete_succ_cursor {s : State} {d : Byte} :
    lineComplete d (s.cursor + 1) = true ↔ s.completes (.rxByte d) := by
  rw [lineComplete_iff, State.completes_rxByte, Nat.succ_inj]

/-- All that RX_BYTE can answer (R100, R101): stuck, the byte appended, or the line completed. -/
theorem exec_rxByte_eq_next {s t : State} {d : Byte} :
    exec (.rxByte d) s = .next t ↔
      (s.halted = true ∧ t = s.answer .stuck) ∨
      (s.halted = false ∧ ¬ s.completes (.rxByte d) ∧ s.cursor ≤ 99 ∧
        t = State.answer { s with buf := s.buf.write s.cursor d, cursor := s.cursor + 1 } .done) ∨
      (s.halted = false ∧ s.completes (.rxByte d) ∧ s.cursor ≤ 98 ∧
        t = (State.publish { s with
          buf := (s.buf.write s.cursor d).write (s.cursor + 1) 0x00, cursor := s.cursor + 1 }).answer .done) := by
  rw [show exec (.rxByte d) s = execRxByte d s from rfl, execRxByte, whenRunning_eq_next]
  simp only [andThen_eq_next, State.appendByte_eq_next]
  by_cases hc : s.completes (.rxByte d)
  · have hl := lineComplete_succ_cursor.mpr hc
    grind [State.completeLine_eq_next, andThen_eq_next]
  · have hl := mt lineComplete_succ_cursor.mp hc
    grind

/-! ### The overrun mark -/

/-- If an event's own effect hands the overrun mark through, so does the event: the check for `halted` does. -/
theorem whenRunning_with_overrun {s t : State} {k k' : Host.Outcome State Fault Refusal} {b : Bool}
    (h : whenRunning s k = .next t) (hk : k = .next t → k' = .next { t with overrun := b }) :
    whenRunning { s with overrun := b } k' = .next { t with overrun := b } := by
  obtain ⟨hs, rfl⟩ | ⟨hs, ht⟩ := whenRunning_eq_next.mp h
  · exact whenRunning_halted (s := { s with overrun := b }) hs _
  · exact (whenRunning_running (s := { s with overrun := b }) hs _).trans (hk ht)

theorem State.answerSnap_with_overrun {s t : State} {n : Nat} (b : Bool) (h : s.answerSnap n = .next t) :
    State.answerSnap { s with overrun := b } n = .next { t with overrun := b } := by
  rw [State.answerSnap_eq_next] at h ⊢
  obtain ⟨hn, ⟨c, hc, rfl⟩ | ⟨hc, rfl⟩⟩ := h
  · exact ⟨hn, .inl ⟨c, hc, rfl⟩⟩
  · exact ⟨hn, .inr ⟨hc, rfl⟩⟩

/-- Every event but RX_BYTE and RESET hands the overrun mark through, whatever its value. -/
theorem exec_with_overrun_of_not_rxByte {i : Instr} {s t : State} (b : Bool) (hrx : ∀ d, i ≠ .rxByte d)
    (hreset : i ≠ .reset) (h : exec i s = .next t) :
    exec i { s with overrun := b } = .next { t with overrun := b } := by
  cases i with
  | rxByte d => exact absurd rfl (hrx d)
  | reset => exact absurd rfl hreset
  | statusRead => exact whenRunning_with_overrun h (by rintro ⟨⟩; rfl)
  | cmdAck => exact whenRunning_with_overrun h (by rintro ⟨⟩; rfl)
  | classify x y btn => exact whenRunning_with_overrun h (by rintro ⟨⟩; rfl)
  | halt => exact whenRunning_with_overrun h (by rintro ⟨⟩; rfl)
  | calWrite sel v => exact whenRunning_with_overrun h (by cases sel <;> rintro ⟨⟩ <;> rfl)
  | snapRead idx =>
    refine whenRunning_with_overrun h fun h => ?_
    split at h
    next hlt => exact (if_pos hlt).trans (State.answerSnap_with_overrun b h)
    next hge => cases h; exact if_neg hge
  | tick x y btn =>
    refine whenRunning_with_overrun h fun h => ?_
    split at h
    next hq => cases h; exact if_pos hq
    next hq => cases h; exact if_neg hq
  | txAccept =>
    refine whenRunning_with_overrun h ?_
    cases hq : s.txQ with
    | nil => rintro ⟨⟩; simp [State.answer, hq]
    | cons c q => rintro ⟨⟩; rfl

/-- RX_BYTE hands the overrun mark through, but for a completion over an unread line, which sets it (R102). -/
theorem exec_rxByte_with_overrun {d : Byte} {s t : State} (b : Bool) (h : exec (.rxByte d) s = .next t) :
    ∃ b', (b' = true ↔ b = true ∨ (s.halted = false ∧ s.cmdReady = true ∧ s.completes (.rxByte d))) ∧
      exec (.rxByte d) { s with overrun := b } = .next { t with overrun := b' } := by
  obtain ⟨hs, rfl⟩ | ⟨hs, hc, hcur, rfl⟩ | ⟨hs, hc, hcur, rfl⟩ := exec_rxByte_eq_next.mp h
  · exact ⟨b, by simp [hs], exec_rxByte_eq_next.mpr (.inl ⟨hs, rfl⟩)⟩
  · exact ⟨b, by simp [hc], exec_rxByte_eq_next.mpr (.inr (.inl ⟨hs, hc, hcur, rfl⟩))⟩
  · exact ⟨overrunAfter s.cmdReady b, by simp [overrunAfter, hs, hc, or_comm],
      exec_rxByte_eq_next.mpr (.inr (.inr ⟨hs, hc, hcur, rfl⟩))⟩

/-- With the overrun mark at any value, an event but RESET answers the same next state but for the mark, which is then
set exactly if it was set or the event completes a line over an unread one (R26). -/
theorem exec_with_overrun {i : Instr} {s t : State} (b : Bool) (hreset : i ≠ .reset) (h : exec i s = .next t) :
    ∃ b', (b' = true ↔ b = true ∨ (s.halted = false ∧ s.cmdReady = true ∧ s.completes i)) ∧
      exec i { s with overrun := b } = .next { t with overrun := b' } := by
  by_cases hrx : ∃ d, i = .rxByte d
  · obtain ⟨d, rfl⟩ := hrx
    exact exec_rxByte_with_overrun b h
  · have hrx := not_exists.mp hrx
    exact ⟨b, by simp [State.not_completes hrx], exec_with_overrun_of_not_rxByte b hrx hreset h⟩

/-- Settles O22: that the mark is read by nothing is `exec_with_overrun` at any value of it, and when it is set is the same
lemma at the value that it has. -/
theorem overrunMarksACompletionOverAnUnreadLine : Obligations.OverrunMarksACompletionOverAnUnreadLine := by
  refine ⟨?set, ?cleared, ?unread⟩
  case set =>
    intro i s t h hreset
    obtain ⟨b', hb', ht⟩ := exec_with_overrun s.overrun hreset h
    have hsame : t = { t with overrun := b' } := Host.Outcome.next.inj (h.symm.trans ht)
    rw [hsame]
    exact hb'
  case cleared =>
    rintro s t ⟨⟩
    rfl
  case unread =>
    intro i s t b h
    by_cases hreset : i = .reset
    · subst hreset
      cases h
      exact ⟨false, rfl⟩
    · obtain ⟨b', -, ht⟩ := exec_with_overrun b hreset h
      exact ⟨b', ht⟩

end Sys2Proof.Machine
end

section
/-! PROOFS. The encoding (30_encoding.md): for which words the decoder gives which reason (R80), and what the word that
CLASSIFY answers holds (R81). -/

namespace Sys2Proof

open Sys2Proof.Machine

/-! ### The reserved bits -/

/-- `OP` as the decoder cuts it out of the word is `OP` as R73 places it. -/
theorem opField_toNat (w : EventWord) : (opField w).toNat = wordOp w := by
  have hw : w.toNat < 2 ^ 64 := w.isLt
  rw [opField, BitVec.extractLsb'_toNat, wordOp, Nat.shiftRight_eq_div_pow]
  exact Nat.mod_eq_of_lt (by omega)

/-- The four bits above the operands are the bits of `OP` (R73). -/
theorem getLsbD_of_sixty_le (w : EventWord) {k : Nat} (hk : 60 ≤ k) : w.getLsbD k = (wordOp w).testBit (k - 60) := by
  rw [wordOp, Nat.testBit_div_two_pow, Nat.sub_add_cancel hk, BitVec.testBit_toNat]

/-- A `mask` and a `match` of the opcode table fit the row of `op`: the mask leaves out the named fields and nothing else,
and the match has `op` above 60 zeros. -/
abbrev RowFits (op : Nat) (mask pat : EventWord) : Prop :=
  ∀ k < 64, mask.getLsbD k = !namedBit op k ∧ pat.getLsbD k = (decide (60 ≤ k) && op.testBit (k - 60))

/-- No bit of `OP` is a bit of an operand field (R75 to R79). -/
theorem namedBit_of_sixty_le {op k : Nat} (hk : 60 ≤ k) : namedBit op k = false := by
  unfold namedBit
  grind

/-- A word with a row's `OP` passes the row's test exactly when the bits that R80 reserves are 0. -/
theorem and_mask_eq_iff {w mask pat : EventWord} {op : Nat} (hop : wordOp w = op) (hrow : RowFits op mask pat) :
    w &&& mask = pat ↔ reservedBitsZero w := by
  subst hop
  constructor
  · rintro rfl k hk hnamed
    obtain ⟨hmask, hpat⟩ := hrow k (by omega)
    simpa [hmask, hnamed, Nat.not_le_of_lt hk] using hpat
  · intro hzero
    refine BitVec.eq_of_getLsbD_eq fun k hk => ?_
    obtain ⟨hmask, hpat⟩ := hrow k hk
    rw [BitVec.getLsbD_and, hmask, hpat]
    by_cases hk60 : 60 ≤ k
    · simp [hk60, namedBit_of_sixty_le hk60, getLsbD_of_sixty_le w hk60]
    · have hbit := hzero k (by omega)
      grind

/-- A word that a row answers with a reason has a 1 in a reserved bit, or the row's fields give that reason. -/
theorem reservedClear_eq_illegal {w mask pat : EventWord} {op : Nat} {f : Decoded} {r : RefuseReason}
    (hop : wordOp w = op) (hrow : RowFits op mask pat) :
    reservedClear w mask pat f = .illegal r ↔
      (r = .nonzeroReservedBits ∧ ¬ reservedBitsZero w) ∨ (reservedBitsZero w ∧ f = .illegal r) := by
  rw [reservedClear, ← and_mask_eq_iff hop hrow]
  by_cases hzero : w &&& mask = pat <;> simp [hzero, eq_comm]

/-! ### The operand ranges -/

theorem AxisWidth.admits_eq_false {aw : AxisWidth} {v : AxisValue} : aw.admits v = false ↔ 2 ^ aw.bits ≤ v.toNat := by
  simp [AxisWidth.admits]

/-- SNAP_READ's only reason is its index (R76). -/
theorem snapFields_eq_illegal {w : EventWord} {r : RefuseReason} :
    snapFields w = .illegal r ↔ r = .indexRange ∧ 98 < w.toNat % 2 ^ 7 := by
  have hidx : (w.extractLsb' 0 7).toNat = w.toNat % 2 ^ 7 := BitVec.extractLsb'_toNat ..
  rw [← hidx, ← Nat.not_le, snapFields]
  split
  next hle => exact iff_of_false nofun fun h => h.2 hle
  next hgt => simp only [Decoded.illegal.injEq, hgt, not_false_eq_true, and_true, eq_comm]

/-- The only reason of TICK and CLASSIFY is their sample (R77). -/
theorem sampleFields_eq_illegal {aw : AxisWidth} {w : EventWord} {ctor : AxisValue → AxisValue → Bool → Instr}
    {r : RefuseReason} :
    sampleFields aw w ctor = .illegal r ↔ r = .sampleRange ∧
      (2 ^ aw.bits ≤ w.toNat % 2 ^ 16 ∨ 2 ^ aw.bits ≤ w.toNat / 2 ^ 16 % 2 ^ 16) := by
  have hx : (w.extractLsb' 0 16).toNat = w.toNat % 2 ^ 16 := BitVec.extractLsb'_toNat ..
  have hy : (w.extractLsb' 16 16).toNat = w.toNat / 2 ^ 16 % 2 ^ 16 := by
    rw [BitVec.extractLsb'_toNat, Nat.shiftRight_eq_div_pow]
  rw [← hx, ← hy, ← AxisWidth.admits_eq_false, ← AxisWidth.admits_eq_false, ← Bool.and_eq_false_iff,
    sampleFields]
  split
  next hin => simp [hin]
  next hout => simp [Bool.eq_false_of_not_eq_true hout, eq_comm]

/-- CAL_WRITE's reasons are the reserved `SEL` and, after it, its value (R78). -/
theorem calFields_eq_illegal {aw : AxisWidth} {w : EventWord} {r : RefuseReason} :
    calFields aw w = .illegal r ↔
      (r = .reservedSel ∧ w.toNat / 2 ^ 32 % 4 = 3) ∨
      (r = .valueRange ∧ w.toNat / 2 ^ 32 % 4 ≠ 3 ∧ 2 ^ aw.bits ≤ w.toNat % 2 ^ 16) := by
  have hv : (w.extractLsb' 0 16).toNat = w.toNat % 2 ^ 16 := BitVec.extractLsb'_toNat ..
  have hsel : calRegOfSel (w.extractLsb' 32 2) = none ↔ w.toNat / 2 ^ 32 % 4 = 3 := by
    rw [calRegOfSel_eq_none, ← BitVec.toNat_inj, BitVec.extractLsb'_toNat, Nat.shiftRight_eq_div_pow]
    rfl
  rw [← hv, ne_eq, ← hsel, ← AxisWidth.admits_eq_false, calFields]
  cases calRegOfSel (w.extractLsb' 32 2) with
  | none => simpa using eq_comm
  | some sel => cases aw.admits (w.extractLsb' 0 16) <;> simp [eq_comm]

/-! ### The decoder -/

/-- All that the decoder can refuse a word for (R80, R82): its `OP`, a reserved bit, or, when both are sound, the operands
of the four rows that check theirs. -/
theorem decode_eq_illegal {aw : AxisWidth} {w : EventWord} {r : RefuseReason} :
    decode aw w = .illegal r ↔
      (r = .reservedOp ∧ (wordOp w = 0 ∨ 11 ≤ wordOp w)) ∨
      (r = .nonzeroReservedBits ∧ (1 ≤ wordOp w ∧ wordOp w ≤ 10) ∧ ¬ reservedBitsZero w) ∨
      (reservedBitsZero w ∧
        ((wordOp w = 3 ∧ snapFields w = .illegal r) ∨
        (wordOp w = 5 ∧ sampleFields aw w .tick = .illegal r) ∨
        (wordOp w = 6 ∧ sampleFields aw w .classify = .illegal r) ∨
        (wordOp w = 8 ∧ calFields aw w = .illegal r))) := by
  rw [decode, opField_toNat]
  split
  case h_1 hop | h_2 hop | h_3 hop | h_4 hop | h_5 hop | h_6 hop | h_7 hop | h_8 hop | h_9 hop | h_10 hop =>
    exact (reservedClear_eq_illegal hop (by decide)).trans (by simp [hop])
  case h_11 => grind

/-- Settles O3: each reason's condition is read off `decode_eq_illegal` and the operand ranges of the `OP` it belongs to. -/
theorem illegalWordsGetTheFirstReason : Obligations.IllegalWordsGetTheFirstReason := by
  intro aw w
  simp only [decode_eq_illegal, snapFields_eq_illegal, sampleFields_eq_illegal, calFields_eq_illegal]
  refine ⟨?reservedOp, ?nonzeroReservedBits, ?indexRange, ?sampleRange, ?reservedSel, ?valueRange⟩
  case reservedOp => simp
  case nonzeroReservedBits => simp
  case indexRange => simp [and_left_comm]
  case sampleRange => simp [← or_and_right, and_left_comm]
  case reservedSel => simp [and_left_comm]
  case valueRange => simp [and_left_comm]

end Sys2Proof

namespace Sys2Proof.Machine

open Sys2Proof

/-! ### The word that CLASSIFY answers -/

/-- Bit 3 of the result word is the pressed bit (R81). -/
theorem classifyWord_getLsbD_three (d : Direction) (p : Bool) : (classifyWord d p).getLsbD 3 = p := by
  cases d <;> cases p <;> rfl

/-- Bits 2:0 of the result word are the direction value (R81). -/
theorem classifyWord_toNat_mod (d : Direction) (p : Bool) : (classifyWord d p).toNat % 8 = (dirValue d).toNat := by
  cases d <;> cases p <;> rfl

/-- The direction's number (R72), by the tests of R130 in their order. -/
theorem dirValue_direction (x y cx cy dz : AxisValue) :
    (dirValue (direction x y cx cy dz)).toNat =
      if (x.toNat : Int) > cx.toNat + dz.toNat then 4
      else if (x.toNat : Int) < cx.toNat - dz.toNat then 3
      else if (y.toNat : Int) > cy.toNat + dz.toNat then 1
      else if (y.toNat : Int) < cy.toNat - dz.toNat then 2
      else 0 := by
  simp only [direction, apply_ite dirValue, apply_ite BitVec.toNat]
  rfl

/-- What a running block answers to CLASSIFY (R132). -/
theorem exec_classify_running {s : State} {x y : AxisValue} {btn : Bool} (h : s.halted = false) :
    exec (.classify x y btn) s = .next (s.answer (.classified (classifyWord (s.directionOf x y) (pressed btn)))) :=
  whenRunning_running h _

/-- Settles O24: the word answered is `classifyWord`, whose bits are the pressed bit and the number of the direction. -/
theorem classifyReturnsDirectionAndPressed : Obligations.ClassifyReturnsDirectionAndPressed := by
  intro s x y btn hs
  refine ⟨_, exec_classify_running hs, ?pressed, ?direction⟩
  case pressed => rw [classifyWord_getLsbD_three, pressed, Bool.not_eq_true']
  case direction => rw [classifyWord_toNat_mod, State.directionOf, dirValue_direction]

end Sys2Proof.Machine
end

section
/-! PROOFS. The receive framer (40_framer.md): CMD_ACK (R105), how received bytes build up a line and complete it (R100,
R101), and the two lines of an overlong run (R109). -/

namespace Sys2Proof.Machine

open Sys2Proof

/-! ### CMD_ACK -/

/-- What a running block answers to CMD_ACK (R105). -/
theorem exec_cmdAck_running {s : State} (h : s.halted = false) :
    exec .cmdAck s = .next { s with cmdReady := false, reply := .done } :=
  whenRunning_running h _

/-- Settles O16: CMD_ACK is stuck or has its one effect, and the effect is none where the flag is already 0. -/
theorem cmdAckClearsOnlyTheFlag : Obligations.CmdAckClearsOnlyTheFlag := by
  intro s
  refine ⟨exec_cmdAck_running, fun hs => whenRunning_halted hs _, fun hs hready => ?again⟩
  case again => rw [exec_cmdAck_running hs, ← hready]

/-! ### A list of bytes in a store -/

/-- The bytes of a list are the first bytes of a store. -/
def Memory.Holds (m : Memory) (l : List Byte) : Prop :=
  ∀ (k : Nat) (h : k < l.length), m.read k = some l[k]

theorem Memory.holds_nil (m : Memory) : m.Holds [] := nofun

/-- A byte written just behind the list is the next byte of the list. -/
theorem Memory.Holds.write_length {m : Memory} {l : List Byte} (hm : m.Holds l) (d : Byte) :
    (m.write l.length d).Holds (l ++ [d]) := by
  intro k hk
  rw [Memory.read_write, List.getElem_append]
  rw [List.length_append, List.length_singleton] at hk
  split
  next heq => simp [heq]
  next hne => rw [dif_pos (by omega), hm k (by omega)]

/-- A byte written behind the list leaves the list. -/
theorem Memory.Holds.write_of_length_le {m : Memory} {l : List Byte} (hm : m.Holds l) {a : Nat} (ha : l.length ≤ a)
    (d : Byte) : (m.write a d).Holds l := by
  intro k hk
  rw [Memory.read_write_other _ _ (by omega), hm k hk]

/-- A copy of as many bytes as the list has takes the list along. -/
theorem Memory.Holds.copyFirst {src : Memory} {l : List Byte} (hsrc : src.Holds l) (dst : Memory) :
    (Memory.copyFirst l.length src dst).Holds l := by
  intro k hk
  rw [Memory.read_copyFirst, if_pos hk, hsrc k hk]

/-! ### One byte -/

/-- A byte inside a line is stored (R100). -/
theorem exec_rxByte_inside {s : State} {d : Byte} (hs : s.halted = false) (hcur : s.cursor < 98) (hd : d ≠ 0x0A) :
    exec (.rxByte d) s =
      .next { s with buf := s.buf.write s.cursor d, cursor := s.cursor + 1, reply := .done } := by
  have hc : ¬ s.completes (.rxByte d) := by
    rw [State.completes_rxByte]
    exact not_or.mpr ⟨hd, hcur.ne⟩
  exact exec_rxByte_eq_next.mpr (.inr (.inl ⟨hs, hc, by omega, rfl⟩))

/-- A byte that ends a line is stored, with the NUL behind it, and the line is published (R100, R101). -/
theorem exec_rxByte_last {s : State} {d : Byte} (hs : s.halted = false) (hcur : s.cursor ≤ 98)
    (hd : d = 0x0A ∨ s.cursor = 98) :
    exec (.rxByte d) s = .next ((State.publish { s with
      buf := (s.buf.write s.cursor d).write (s.cursor + 1) 0x00, cursor := s.cursor + 1 }).answer .done) :=
  exec_rxByte_eq_next.mpr (.inr (.inr ⟨hs, State.completes_rxByte.mpr hd, hcur, rfl⟩))

theorem receive_singleton (d : Byte) (s : State) : receive [d] s = exec (.rxByte d) s := by
  change andThen (exec (.rxByte d) s) .next = _
  cases exec (.rxByte d) s <;> rfl

/-! ### A line -/

/-- Bytes that do not complete a line are in the line buffer, and only it and the cursor change (R100, R107). -/
theorem receive_unfinished {s : State} {l : List Byte} (hs : s.halted = false) (hcur : s.cursor = 0)
    (hlen : l.length < 99) (hl : ∀ b ∈ l, b ≠ 0x0A) :
    ∃ buf reply, receive l s = .next { s with buf := buf, cursor := l.length, reply := reply } ∧
      Memory.Holds buf l := by
  induction l using List.reverseRecOn with
  | nil => exact ⟨s.buf, s.reply, by rw [List.length_nil, ← hcur]; rfl, Memory.holds_nil _⟩
  | append_singleton l d ih =>
    rw [List.length_append, List.length_singleton] at hlen
    obtain ⟨buf, reply, hrun, hbuf⟩ := ih (by omega) fun b hb => hl b (List.mem_append_left _ hb)
    have hd : d ≠ 0x0A := hl d (List.mem_append_right _ List.mem_cons_self)
    refine ⟨buf.write l.length d, .done, ?_, hbuf.write_length d⟩
    rw [receive_append, hrun, andThen_next, receive_singleton, List.length_append]
    exact exec_rxByte_inside hs (Nat.lt_of_succ_lt_succ hlen) hd

/-- The block once a line is published (R101, R102): all it shows of the line, with its two stores as given. -/
def State.afterLine (s : State) (l : List Byte) (buf snap : Memory) : State :=
  { s with
    buf := buf, snap := snap, cursor := 0, snapLen := l.length, cmdReady := true
    overrun := s.overrun || s.cmdReady, reply := .done }

/-- The framer refines the wire format of R70: a line received at cursor 0 is published, and its bytes
are the snapshot. -/
theorem receive_line {s : State} {l : List Byte} (hs : s.halted = false) (hcur : s.cursor = 0) (hl : isLine l) :
    ∃ buf snap, receive l s = .next (s.afterLine l buf snap) ∧ Memory.Holds snap l := by
  obtain ⟨hlen, body, last, rfl, hbody, hlast⟩ := hl
  rw [List.length_append, List.length_singleton] at hlen hlast
  obtain ⟨buf, reply, hrun, hbuf⟩ := receive_unfinished hs hcur (by omega) hbody
  have hline : Memory.Holds ((buf.write body.length last).write (body.length + 1) 0x00) (body ++ [last]) :=
    (hbuf.write_length last).write_of_length_le (by simp) 0x00
  refine ⟨(buf.write body.length last).write (body.length + 1) 0x00, _, ?_, hline.copyFirst s.snap⟩
  rw [receive_append, hrun, andThen_next, receive_singleton, State.afterLine, List.length_append, Bool.or_comm]
  exact exec_rxByte_last hs (Nat.le_of_succ_le_succ hlen) (hlast.imp_right Nat.succ.inj)

/-! ### The overlong run -/

/-- 99 bytes without a line feed are a line of R70, ended by its 99th byte (R106). -/
theorem isLine_of_length_eq {l : List Byte} (hlen : l.length = 99) (hl : ∀ b ∈ l, b ≠ 0x0A) : isLine l := by
  have hne : l ≠ [] := List.ne_nil_of_length_pos (by omega)
  exact ⟨hlen.le, l.dropLast, l.getLast hne, (List.dropLast_append_getLast hne).symm,
    fun b hb => hl b (List.mem_of_mem_dropLast hb), .inr hlen⟩

/-- A line feed alone is a line of R70. -/
theorem isLine_lineFeed : isLine [0x0A] :=
  ⟨by decide, [], term, rfl, nofun, .inl rfl⟩

/-- Settles O19: the 99 bytes are one line of the wire format and the line feed is another, each received
at cursor 0. -/
theorem overlongRunGivesTwoLines : Obligations.OverlongRunGivesTwoLines := by
  refine ⟨?run, ?feed⟩
  case run =>
    intro s l hs hcur hlen hl
    obtain ⟨buf, snap, hrun, hsnap⟩ := receive_line hs hcur (isLine_of_length_eq hlen hl)
    obtain ⟨buf', snap', hfeed, hsnap'⟩ := receive_line (s := s.afterLine l buf snap) hs rfl isLine_lineFeed
    have hboth := receive_append l [0x0A] s
    rw [hrun, andThen_next, hfeed] at hboth
    exact ⟨_, _, hrun, hboth, ⟨hlen, rfl, rfl, hsnap⟩, rfl, rfl, rfl, hsnap' 0 Nat.one_pos⟩
  case feed =>
    intro s hs hcur
    obtain ⟨buf, snap, hfeed, hsnap⟩ := receive_line hs hcur isLine_lineFeed
    rw [receive_singleton] at hfeed
    exact ⟨_, hfeed, rfl, rfl, hsnap 0 Nat.one_pos⟩

end Sys2Proof.Machine
end

section
/-! PROOFS. The direction classifier (41_classifier.md): the tests of R130 one axis at a time, the Neutral box (R134) and
horizontal priority (R135). -/

namespace Sys2Proof.Machine

open Sys2Proof

/-! ### One axis -/

/-- The closed band of R134 on one axis: `v` is past neither threshold around the centre `c`. -/
abbrev InBand (v c dz : AxisValue) : Prop :=
  (c.toNat : Int) - dz.toNat ≤ v.toNat ∧ (v.toNat : Int) ≤ c.toNat + dz.toNat

/-- The last three branches of R130, those that read `y`. -/
def verticalDirection (y cy dz : AxisValue) : Direction :=
  if (y.toNat : Int) > cy.toNat + dz.toNat then .up
  else if (y.toNat : Int) < cy.toNat - dz.toNat then .down
  else .neutral

/-- A value outside the band is past one of the two thresholds. -/
theorem inBand_or_past (v c dz : AxisValue) :
    InBand v c dz ∨ (v.toNat : Int) > c.toNat + dz.toNat ∨ (v.toNat : Int) < c.toNat - dz.toNat := by
  omega

/-- The tests on `y` find nothing exactly inside its band. -/
theorem verticalDirection_eq_neutral {y cy dz : AxisValue} : verticalDirection y cy dz = .neutral ↔ InBand y cy dz := by
  unfold verticalDirection
  split
  next habove => exact iff_of_false nofun fun hy => habove.not_ge hy.2
  next hle =>
    split
    next hbelow => exact iff_of_false nofun fun hy => hbelow.not_ge hy.1
    next hge => exact iff_of_true rfl ⟨not_lt.mp hge, not_lt.mp hle⟩

/-! ### The two axes: where `x` stands decides first -/

section
variable {x y cx cy dz : AxisValue}

theorem direction_of_x_above (h : (x.toNat : Int) > cx.toNat + dz.toNat) : direction x y cx cy dz = .right :=
  if_pos h

/-- The deadzone is never negative, so an `x` below its band is not also above it (R133). -/
theorem direction_of_x_below (h : (x.toNat : Int) < cx.toNat - dz.toNat) : direction x y cx cy dz = .left :=
  (if_neg (by omega)).trans (if_pos h)

theorem direction_of_x_inBand (h : InBand x cx dz) : direction x y cx cy dz = verticalDirection y cy dz :=
  (if_neg h.2.not_gt).trans (if_neg h.1.not_gt)

end

/-- Settles O25: outside the band of `x` the direction is horizontal, and inside it the tests on `y` decide. -/
theorem neutralExactlyInTheClosedBox : Obligations.NeutralExactlyInTheClosedBox := by
  intro x y cx cy dz
  rcases inBand_or_past x cx dz with hx | habove | hbelow
  · rw [direction_of_x_inBand hx, verticalDirection_eq_neutral]
    exact (and_iff_right hx).symm
  · rw [direction_of_x_above habove]
    exact iff_of_false nofun fun hbox => habove.not_ge hbox.1.2
  · rw [direction_of_x_below hbelow]
    exact iff_of_false nofun fun hbox => hbelow.not_ge hbox.1.1

/-- Settles O26: an `x` past a threshold gives Right or Left, so Up and Down leave only its band. -/
theorem horizontalHasPriority : Obligations.HorizontalHasPriority := by
  intro x y cx cy dz
  refine ⟨direction_of_x_above, direction_of_x_below, fun hvertical => ?_⟩
  rcases inBand_or_past x cx dz with hx | habove | hbelow
  · exact hx
  · rw [direction_of_x_above habove] at hvertical
    exact nomatch hvertical
  · rw [direction_of_x_below hbelow] at hvertical
    exact nomatch hvertical

end Sys2Proof.Machine
end

section
/-! PROOFS. The transmit gate (42_transmit_gate.md): the frames a tick queues under each policy (R152, R153, R154) and
what TICK and TX_ACCEPT answer (R150, R151). -/

namespace Sys2Proof.Machine

open Sys2Proof

/-! ### The frames on the wire -/

/-- The gate's direction frame is the wire's (R71). -/
theorem dirFrame_eq_directionBytes (d : Direction) : dirFrame d = directionBytes d := by
  cases d <;> rfl

/-- A direction frame is empty, or it is the code of the direction with CR and LF (R71). -/
theorem directionBytes_cases (d : Direction) :
    directionBytes d = [] ∨ ∃ c, wireCode d = some c ∧ directionBytes d = [c, 0x0D, 0x0A] := by
  unfold directionBytes
  cases wireCode d with
  | none => exact .inl rfl
  | some c => exact .inr ⟨c, rfl, rfl⟩

/-- Neutral has no frame, so the gate's test for it leaves the frame as it is. -/
theorem ite_ne_neutral_and_dirFrame (d : Direction) (c : Prop) [Decidable c] :
    (if d ≠ .neutral ∧ c then dirFrame d else []) = if c then directionBytes d else [] := by
  rw [dirFrame_eq_directionBytes]
  by_cases hd : d = .neutral
  · rw [if_neg fun h => h.1 hd, hd]
    exact (ite_self ([] : List Byte)).symm
  · simp [hd]

/-! ### What a tick queues -/

/-- The bytes of a tick under LEVEL (R152): earlier ticks have no part in them. -/
theorem State.tickBytes_level {s : State} (h : s.cfg.txTrigger = .level) (d : Direction) (btn : Bool) :
    s.tickBytes d (pressed btn) = directionBytes d ++ (if btn = false then [0x42, 0x0D, 0x0A] else []) := by
  have hdir := ite_ne_neutral_and_dirFrame d True
  simp only [and_true, if_true] at hdir
  simp only [State.tickBytes, h, sendsDirection, sendsButton, bne_iff_ne, hdir, pressed, Bool.not_eq_true']
  rfl

/-- The bytes of a tick under EDGE (R153): a frame for what the previous tick did not show. -/
theorem State.tickBytes_edge {s : State} (h : s.cfg.txTrigger = .edge) (d : Direction) (btn : Bool) :
    s.tickBytes d (pressed btn) =
      (if d ≠ s.prevDir then directionBytes d else []) ++
        (if btn = false ∧ s.prevPressed = false then [0x42, 0x0D, 0x0A] else []) := by
  simp only [State.tickBytes, h, sendsDirection, sendsButton, pressed, Bool.and_eq_true, bne_iff_ne,
    Bool.not_eq_true', ite_ne_neutral_and_dirFrame]
  rfl

/-- Under either policy a tick queues a direction frame or none, and then a button frame or none (R154). -/
theorem State.tickBytes_eq_append (s : State) (d : Direction) (p : Bool) :
    ∃ dir button : List Byte, s.tickBytes d p = dir ++ button ∧
      (dir = [] ∨ ∃ c, wireCode d = some c ∧ dir = [c, 0x0D, 0x0A]) ∧
      (button = [] ∨ button = [0x42, 0x0D, 0x0A]) := by
  obtain ⟨sendD, sendB, -, hbytes⟩ := s.tickBytes_cases d p
  refine ⟨_, _, hbytes, ?dir, ?button⟩
  case dir =>
    cases sendD with
    | false => exact .inl rfl
    | true => exact dirFrame_eq_directionBytes d ▸ directionBytes_cases d
  case button =>
    cases sendB with
    | false => exact .inl rfl
    | true => exact .inr rfl

/-! ### TICK -/

/-- What a running, idle block answers to TICK (R150). -/
theorem exec_tick_idle {s : State} (x y : AxisValue) (btn : Bool) (hs : s.halted = false) (hq : s.txQ = []) :
    exec (.tick x y btn) s = .next { s with
      txQ := s.tickBytes (s.directionOf x y) (pressed btn)
      prevDir := s.directionOf x y, prevPressed := pressed btn, reply := .done } :=
  (whenRunning_running hs _).trans (if_pos (List.isEmpty_iff.mpr hq))

/-- What a running, busy block answers to TICK (R150, R155). -/
theorem exec_tick_busy {s : State} (x y : AxisValue) (btn : Bool) (hs : s.halted = false) (hq : s.txQ ≠ []) :
    exec (.tick x y btn) s = .next (s.answer (.hold .txBusy)) :=
  (whenRunning_running hs _).trans (if_neg (mt List.isEmpty_iff.mp hq))

/-- TICK returns only from a running, idle block: elsewhere it is stuck or held (R150). -/
theorem running_idle_of_tick_done {s t : State} {x y : AxisValue} {btn : Bool} (h : exec (.tick x y btn) s = .next t)
    (hdone : t.reply = .done) : s.halted = false ∧ s.txQ = [] := by
  obtain ⟨-, rfl⟩ | ⟨hs, -⟩ := whenRunning_eq_next.mp h
  · exact nomatch hdone
  · refine ⟨hs, by_contra fun hq => ?_⟩
    rw [exec_tick_busy x y btn hs hq] at h
    cases h
    exact nomatch hdone

/-- Settles O28: the tick's bytes, read under LEVEL. -/
theorem levelTickSendsWhileTheConditionHolds : Obligations.LevelTickSendsWhileTheConditionHolds := by
  intro s x y btn hs hq hlevel
  rw [exec_tick_idle x y btn hs hq, State.tickBytes_level hlevel]
  rfl

/-- Settles O29: the tick's bytes, read under EDGE, and RESET's values of `prev_dir` and `prev_pressed`. -/
theorem edgeTickSendsOnEntry : Obligations.EdgeTickSendsOnEntry := by
  refine ⟨?tick, ?reset⟩
  case tick =>
    intro s x y btn hs hq hedge
    rw [exec_tick_idle x y btn hs hq, State.tickBytes_edge hedge]
    rfl
  case reset =>
    rintro s t ⟨⟩
    exact ⟨rfl, rfl⟩

/-- Settles O32: a frame has 3 bytes, and each of the two is sent or not. -/
theorem tickQueuesZeroThreeOrSixBytes : Obligations.TickQueuesZeroThreeOrSixBytes := by
  intro s t x y btn h hdone
  obtain ⟨hs, hq⟩ := running_idle_of_tick_done h hdone
  rw [exec_tick_idle x y btn hs hq] at h
  cases h
  obtain ⟨dir, button, hbytes, hdir, hbutton⟩ := s.tickBytes_eq_append (s.directionOf x y) (pressed btn)
  have hdirLength : dir.length = 0 ∨ dir.length = 3 := by
    obtain rfl | ⟨c, -, rfl⟩ := hdir
    · exact .inl rfl
    · exact .inr rfl
  have hbuttonLength : button.length = 0 ∨ button.length = 3 :=
    hbutton.imp (congrArg List.length) (congrArg List.length)
  refine ⟨dir, button, hbytes, hdir, hbutton, ?length⟩
  case length =>
    simp only [hbytes, List.length_append]
    omega

/-! ### TX_ACCEPT -/

/-- What a running block answers to TX_ACCEPT with a byte queued (R151). -/
theorem exec_txAccept_cons {s : State} {b : Byte} {q : List Byte} (hs : s.halted = false) (hq : s.txQ = b :: q) :
    exec .txAccept s = .next { s with txQ := q, reply := .byte b } := by
  rw [show exec .txAccept s = execTxAccept s from rfl, execTxAccept, whenRunning_running hs, hq]
  rfl

/-- What a running block answers to TX_ACCEPT with nothing queued (R151). -/
theorem exec_txAccept_nil {s : State} (hs : s.halted = false) (hq : s.txQ = []) :
    exec .txAccept s = .next (s.answer (.hold .txEmpty)) := by
  rw [show exec .txAccept s = execTxAccept s from rfl, execTxAccept, whenRunning_running hs, hq]

/-- Settles O31: one case for each form of the queue, and the halted block. -/
theorem txAcceptTakesTheHead : Obligations.TxAcceptTakesTheHead :=
  fun _ => ⟨fun _ _ => exec_txAccept_cons, exec_txAccept_nil, fun hs => whenRunning_halted hs _⟩

end Sys2Proof.Machine
end

section
/-! PROOFS. The control events (43_control.md): HALT (R181). -/

namespace Sys2Proof.Machine

open Sys2Proof

/-- What a running block answers to HALT (R181). -/
theorem exec_halt_running {s : State} (h : s.halted = false) :
    exec .halt s = .next { s with halted := true, reply := .done } :=
  whenRunning_running h _

/-- Settles O41: HALT has its one effect in a running block, and in a halted one the check of R206 answers before it. -/
theorem haltSetsOnlyTheHaltedBit : Obligations.HaltSetsOnlyTheHaltedBit := by
  intro s
  refine ⟨?running, ?halted⟩
  case running => exact exec_halt_running
  case halted => exact fun hs => whenRunning_halted hs _

end Sys2Proof.Machine
end

section
/-! PROOFS. The exceptional outcomes (60_exceptions.md): the halted block (R206). -/

namespace Sys2Proof.Machine

open Sys2Proof

/-- Every event but RESET is stuck in a halted block (R206): the check for `halted` comes before its own effect. -/
theorem exec_halted {i : Instr} {s : State} (h : s.halted = true) (hreset : i ≠ .reset) :
    exec i s = .next (s.answer .stuck) := by
  cases i with
  | reset => exact absurd rfl hreset
  | rxByte d => exact whenRunning_halted h _
  | statusRead => exact whenRunning_halted h _
  | snapRead idx => exact whenRunning_halted h _
  | cmdAck => exact whenRunning_halted h _
  | tick x y btn => exact whenRunning_halted h _
  | classify x y btn => exact whenRunning_halted h _
  | txAccept => exact whenRunning_halted h _
  | calWrite sel v => exact whenRunning_halted h _
  | halt => exact whenRunning_halted h _

/-- A step of a halted block leaves it halted, unless the word taken is a RESET (R206): a turn passed and a word refused
leave the block's bit alone, and any other event is stuck. -/
theorem step_halted {s t : State} (h : s.halted = true) (hstep : step s = .next t) :
    t.halted = true ∨ ∃ a w, s.offered = some (a, w) ∧ decode s.cfg.axisW w = .event .reset := by
  obtain ⟨-, rfl⟩ | ⟨a, w, r, -, -, rfl⟩ | ⟨a, w, i, u, hoffer, hdec, hexec, rfl⟩ := step_eq_next hstep
  · exact .inl h
  · exact .inl h
  · by_cases hreset : i = .reset
    · subst hreset
      exact .inr ⟨a, w, hoffer, hdec⟩
    · obtain rfl : s.answer .stuck = u := Host.Outcome.next.inj ((exec_halted h hreset).symm.trans hexec)
      exact .inl h

/-- A run that is halted after its last event does not end well (R206, R217). -/
theorem State.endsWell_halted {s : State} (h : s.halted = true) : s.endsWell = false := by
  simp [State.endsWell, h]

/-- What RESET answers, in a halted block as in a running one (R182). -/
theorem exec_reset (s : State) : exec .reset s = .next (s.resetBlock.answer .done) := rfl

/-- Settles O10: the check for `halted` stands before every effect but RESET's, and RESET clears the bit. -/
theorem haltedBlockStepsOnlyByReset : Obligations.HaltedBlockStepsOnlyByReset := by
  refine ⟨?stuck, ?step, ?ending, ?reset⟩
  case stuck => exact fun i s h hreset => exec_halted h hreset
  case step => exact fun s t => step_halted
  case ending => exact fun s => State.endsWell_halted
  case reset => exact fun s _ => ⟨_, exec_reset s, s.resetBlock_halted⟩

end Sys2Proof.Machine
end

section
/-! PROOFS. The decoder against the encoder (30_encoding.md R73, R75 to R80, R82): the words that decode to an event are
exactly the encodings of the well-formed events. -/

namespace Sys2Proof

open Sys2Proof.Machine

/-! ### The parts of an encoded word -/

/-- The encoder writes each event's `OP` number (R74). -/
theorem opField_encode (i : Instr) : opField (encode i) = Laws.OpNumber.number i := by
  cases i with
  | rxByte d => exact Laws.OpNumber.rxByte d
  | statusRead => exact Laws.OpNumber.statusRead
  | snapRead idx => exact Laws.OpNumber.snapRead idx
  | cmdAck => exact Laws.OpNumber.cmdAck
  | tick x y btn => exact Laws.OpNumber.tick x y btn
  | classify x y btn => exact Laws.OpNumber.classify x y btn
  | txAccept => exact Laws.OpNumber.txAccept
  | calWrite sel v => exact Laws.OpNumber.calWrite sel v
  | halt => exact Laws.OpNumber.halt
  | reset => exact Laws.OpNumber.reset

theorem wordOp_encode (i : Instr) : wordOp (encode i) = (Laws.OpNumber.number i).toNat := by
  rw [← opField_toNat, opField_encode]

/-- The encoder leaves every reserved bit 0 (R73). A bit outside the named fields falls into the zeros between `OP` and the
operands, or into those between the operands of CAL_WRITE. -/
theorem reservedBitsZero_encode (i : Instr) : reservedBitsZero (encode i) := by
  intro k hk hnamed
  rw [wordOp_encode] at hnamed
  cases i <;> simp [Laws.OpNumber.number, namedBit] at hnamed <;>
    simp only [-BitVec.reduceAppend, encode, BitVec.getLsbD_append, BitVec.getLsbD_zero] <;> grind

/-- The field just above the low part of a concatenation. -/
theorem secondField {u v w : Nat} (a : BitVec u) (b : BitVec v) (c : BitVec w) : (a ++ b ++ c).extractLsb' w v = b := by
  rw [fieldAbove _ _ le_rfl, Nat.sub_self, BitVec.extractLsb'_append_eq_right]

/-! ### The rows of the decoder -/

/-- The fields of TICK and CLASSIFY are read back from their word (R77). -/
theorem sampleFields_append {aw : AxisWidth} {x y : AxisValue} (c : BitVec 31) (btn : Bool)
    (ctor : AxisValue → AxisValue → Bool → Instr) (hx : aw.admits x = true) (hy : aw.admits y = true) :
    sampleFields aw (c ++ BitVec.ofBool btn ++ y ++ x) ctor = .event (ctor x y btn) := by
  have hX : (c ++ BitVec.ofBool btn ++ y ++ x).extractLsb' 0 16 = x := BitVec.extractLsb'_append_eq_right
  have hY : (c ++ BitVec.ofBool btn ++ y ++ x).extractLsb' 16 16 = y := secondField _ y x
  have hBTN : (c ++ BitVec.ofBool btn ++ y ++ x).getLsbD 32 = btn := by
    simp only [BitVec.getLsbD_append]
    simp
  simp only [sampleFields, hX, hY, hBTN, hx, hy, Bool.and_self, if_true]

/-- The fields of CAL_WRITE are read back from its word (R78). -/
theorem calFields_append {aw : AxisWidth} {sel : CalReg} {v : AxisValue} (c : BitVec 30) (hv : aw.admits v = true) :
    calFields aw (c ++ selOfCalReg sel ++ 0#16 ++ v) = .event (.calWrite sel v) := by
  have hV : (c ++ selOfCalReg sel ++ 0#16 ++ v).extractLsb' 0 16 = v := BitVec.extractLsb'_append_eq_right
  have hSEL : (c ++ selOfCalReg sel ++ 0#16 ++ v).extractLsb' 32 2 = selOfCalReg sel :=
    (fieldAbove 48 16 (by decide)).trans (secondField c (selOfCalReg sel) 0#16)
  simp only [calFields, hV, hSEL, calRegOfSel_selOfCalReg, hv, if_true]

/-- The row of a word's `OP` reads its fields if the reserved bits are 0. -/
theorem reservedClear_encode {i : Instr} {mask pat : EventWord} (op : BitVec 4) (f : Decoded)
    (hop : Laws.OpNumber.number i = op) (hrow : RowFits op.toNat mask pat) : reservedClear (encode i) mask pat f = f :=
  reservedClear_of_eq ((and_mask_eq_iff (hop ▸ wordOp_encode i) hrow).mpr (reservedBitsZero_encode i)) f

/-- The decoder reads a well-formed event from its word. -/
theorem decode_encode {aw : AxisWidth} {i : Instr} (h : i.wellFormed aw = true) : decode aw (encode i) = .event i := by
  rw [decode, opField_encode]
  cases i with
  | statusRead | cmdAck | txAccept | halt | reset => exact reservedClear_encode _ _ rfl (by decide)
  | rxByte d =>
    have hD : (encode (.rxByte d)).extractLsb' 0 8 = d := BitVec.extractLsb'_append_eq_right
    exact (reservedClear_encode 1 _ rfl (by decide)).trans (congrArg (Decoded.event ∘ Instr.rxByte) hD)
  | snapRead idx =>
    have hIDX : (encode (.snapRead idx)).extractLsb' 0 7 = idx := BitVec.extractLsb'_append_eq_right
    have hidx : idx.toNat ≤ 98 := of_decide_eq_true h
    refine (reservedClear_encode 3 _ rfl (by decide)).trans ?_
    simp only [snapFields, hIDX, hidx, if_true]
  | tick x y btn =>
    obtain ⟨hx, hy⟩ := Bool.and_eq_true_iff.mp h
    exact (reservedClear_encode 5 _ rfl (by decide)).trans (sampleFields_append _ btn .tick hx hy)
  | classify x y btn =>
    obtain ⟨hx, hy⟩ := Bool.and_eq_true_iff.mp h
    exact (reservedClear_encode 6 _ rfl (by decide)).trans (sampleFields_append _ btn .classify hx hy)
  | calWrite sel v => exact (reservedClear_encode 8 _ rfl (by decide)).trans (calFields_append _ h)

/-- Settles O1: each row reads back the fields that the encoder wrote. -/
theorem decodeOfEncodeIsTheEvent : Obligations.DecodeOfEncodeIsTheEvent :=
  fun _ _ => decode_encode

/-! ### The word behind a decoded event -/

/-- Two words are equal if they have the same `OP` and named fields, and no reserved bit is 1. -/
theorem eq_of_namedBits_eq {w w' : EventWord} (hop : wordOp w = wordOp w') (hw : reservedBitsZero w)
    (hw' : reservedBitsZero w') (hnamed : ∀ k, namedBit (wordOp w') k = true → w.getLsbD k = w'.getLsbD k) : w = w' := by
  refine BitVec.eq_of_getLsbD_eq fun k _ => ?_
  by_cases hk : k < 60
  · cases hbit : namedBit (wordOp w') k with
    | true => exact hnamed k hbit
    | false => rw [hw k hk (hop ▸ hbit), hw' k hk hbit]
  · rw [getLsbD_of_sixty_le w (by omega), getLsbD_of_sixty_le w' (by omega), hop]

/-- A word that passes the test of an event's row, and has its operands in the named fields, is the event's encoding. -/
theorem encode_eq_of_row {w mask pat : EventWord} {i : Instr} {op : Nat} (hop : wordOp w = op)
    (hpat : w &&& mask = pat) (hrow : RowFits op mask pat) (hi : (Laws.OpNumber.number i).toNat = op)
    (hnamed : ∀ k, namedBit op k = true → (encode i).getLsbD k = w.getLsbD k) : encode i = w := by
  subst hop
  exact eq_of_namedBits_eq ((wordOp_encode i).trans hi) (reservedBitsZero_encode i) ((and_mask_eq_iff rfl hrow).mp hpat)
    hnamed

theorem snapFields_eq_event {w : EventWord} {i : Instr} (h : snapFields w = .event i) :
    i = .snapRead (w.extractLsb' 0 7) ∧ (w.extractLsb' 0 7).toNat ≤ 98 := by
  simp only [snapFields] at h
  split at h
  next hle => cases h; exact ⟨rfl, hle⟩
  next => cases h

theorem sampleFields_eq_event {aw : AxisWidth} {w : EventWord} {ctor : AxisValue → AxisValue → Bool → Instr} {i : Instr}
    (h : sampleFields aw w ctor = .event i) :
    i = ctor (w.extractLsb' 0 16) (w.extractLsb' 16 16) (w.getLsbD 32) ∧
      (aw.admits (w.extractLsb' 0 16) && aw.admits (w.extractLsb' 16 16)) = true := by
  simp only [sampleFields] at h
  split at h
  next hin => cases h; exact ⟨rfl, hin⟩
  next => cases h

/-- Below the reserved bits a sample's fields, put together again, are the word (R77). -/
theorem getLsbD_sample (c : BitVec 31) (w : EventWord) {k : Nat} (hk : k < 33) :
    (c ++ BitVec.ofBool (w.getLsbD 32) ++ w.extractLsb' 16 16 ++ w.extractLsb' 0 16).getLsbD k = w.getLsbD k := by
  simp only [BitVec.getLsbD_append, BitVec.getLsbD_extractLsb', BitVec.getLsbD_ofBool]
  grind

theorem calFields_eq_event {aw : AxisWidth} {w : EventWord} {i : Instr} (h : calFields aw w = .event i) :
    ∃ sel, i = .calWrite sel (w.extractLsb' 0 16) ∧ selOfCalReg sel = w.extractLsb' 32 2 ∧
      aw.admits (w.extractLsb' 0 16) = true := by
  unfold calFields at h
  cases hsel : calRegOfSel (w.extractLsb' 32 2) with
  | none => simp [hsel] at h
  | some sel =>
    simp only [hsel] at h
    split at h
    next hv => cases h; exact ⟨sel, rfl, selOfCalReg_of_calRegOfSel hsel, hv⟩
    next => cases h

/-- A word is the encoding of the event that it decodes to, and the event's operands are in range. -/
theorem encode_of_decode {aw : AxisWidth} {w : EventWord} {i : Instr} (h : decode aw w = .event i) :
    encode i = w ∧ i.wellFormed aw = true := by
  rw [decode, opField_toNat] at h
  split at h
  case h_11 => cases h
  case h_2 hop | h_4 hop | h_7 hop | h_9 hop | h_10 hop =>
    obtain ⟨hpat, ⟨⟩⟩ := reservedClear_eq_event.mp h
    exact ⟨encode_eq_of_row hop hpat (by decide) rfl (fun k hk => by simp [namedBit] at hk), rfl⟩
  case h_1 hop =>
    obtain ⟨hpat, ⟨⟩⟩ := reservedClear_eq_event.mp h
    refine ⟨encode_eq_of_row hop hpat (by decide) rfl fun k hk => ?_, rfl⟩
    have hk : k < 8 := of_decide_eq_true hk
    simp only [encode, BitVec.getLsbD_append, BitVec.getLsbD_extractLsb', hk, if_true, decide_true, Bool.true_and,
      Nat.zero_add]
  case h_3 hop =>
    obtain ⟨hpat, hf⟩ := reservedClear_eq_event.mp h
    obtain ⟨rfl, hidx⟩ := snapFields_eq_event hf
    refine ⟨encode_eq_of_row hop hpat (by decide) rfl fun k hk => ?_, decide_eq_true hidx⟩
    have hk : k < 7 := of_decide_eq_true hk
    simp only [encode, BitVec.getLsbD_append, BitVec.getLsbD_extractLsb', hk, if_true, decide_true, Bool.true_and,
      Nat.zero_add]
  case h_5 hop | h_6 hop =>
    obtain ⟨hpat, hf⟩ := reservedClear_eq_event.mp h
    obtain ⟨rfl, hsample⟩ := sampleFields_eq_event hf
    exact ⟨encode_eq_of_row hop hpat (by decide) rfl fun k hk => getLsbD_sample _ w (of_decide_eq_true hk), hsample⟩
  case h_8 hop =>
    obtain ⟨hpat, hf⟩ := reservedClear_eq_event.mp h
    obtain ⟨sel, rfl, hsel, hv⟩ := calFields_eq_event hf
    refine ⟨encode_eq_of_row hop hpat (by decide) rfl fun k hk => ?_, hv⟩
    have hk : k < 16 ∨ k = 32 ∨ k = 33 := of_decide_eq_true hk
    simp only [-BitVec.reduceAppend, encode, hsel, BitVec.getLsbD_append, BitVec.getLsbD_extractLsb']
    grind

/-- Settles O2: the row that decoded the word fixes `OP` and the reserved bits, and the event's operands are the fields. -/
theorem decodedWordIsTheEncodingOfItsEvent : Obligations.DecodedWordIsTheEncodingOfItsEvent :=
  fun _ _ _ => encode_of_decode

/-- Settles O4: the decoder evaluates each listed word. -/
theorem listedWordsDecodeAsListed : Obligations.ListedWordsDecodeAsListed := by
  unfold Obligations.ListedWordsDecodeAsListed
  decide

end Sys2Proof
end

section
/-! PROOFS. What every event can do, said once (60_exceptions.md R206, R208, R209), and that the model does just that. -/

namespace Sys2Proof.Machine

open Sys2Proof

/-- All the next states that an event can answer from a state, one constructor for each outcome of each event. -/
inductive Answers (s : State) : Instr → State → Prop
  /-- R206. -/
  | stuck {i : Instr} (halted : s.halted = true) (hreset : i ≠ .reset) : Answers s i (s.answer .stuck)
  /-- R100, a byte inside the line. -/
  | append {d : Byte} (running : s.halted = false) (inside : ¬ s.completes (.rxByte d)) (hcur : s.cursor ≤ 99) :
      Answers s (.rxByte d) (State.answer { s with buf := s.buf.write s.cursor d, cursor := s.cursor + 1 } .done)
  /-- R100 and R101, the byte that ends the line. -/
  | complete {d : Byte} (running : s.halted = false) (ends : s.completes (.rxByte d)) (hcur : s.cursor ≤ 98) :
      Answers s (.rxByte d) ((State.publish { s with
        buf := (s.buf.write s.cursor d).write (s.cursor + 1) 0x00, cursor := s.cursor + 1 }).answer .done)
  /-- R103. -/
  | status (running : s.halted = false) :
      Answers s .statusRead (s.answer (.status (statusWord s.snapLen (!s.txQ.isEmpty) s.cmdReady)))
  /-- R104, a byte of the line. -/
  | snapByte {idx : BitVec 7} {b : Byte} (running : s.halted = false) (inside : idx.toNat < s.snapLen)
      (hidx : idx.toNat < 99) (stored : s.snap.read idx.toNat = some b) : Answers s (.snapRead idx) (s.answer (.byte b))
  /-- R104, a drawn byte. -/
  | snapDraw {idx : BitVec 7} (running : s.halted = false)
      (outside : s.snapLen ≤ idx.toNat ∨ (idx.toNat < 99 ∧ s.snap.read idx.toNat = none)) :
      Answers s (.snapRead idx) s.answerDraw
  /-- R105. -/
  | cmdAck (running : s.halted = false) : Answers s .cmdAck (State.answer { s with cmdReady := false } .done)
  /-- R150, the tick that returns. -/
  | tick {x y : AxisValue} {btn : Bool} (running : s.halted = false) (idle : s.txQ = []) :
      Answers s (.tick x y btn) (State.answer
        (s.fillGate (s.tickBytes (s.directionOf x y) (pressed btn)) (s.directionOf x y) (pressed btn)) .done)
  /-- R150, the tick that is held. -/
  | tickHold {x y : AxisValue} {btn : Bool} (running : s.halted = false) (busy : s.txQ ≠ []) :
      Answers s (.tick x y btn) (s.answer (.hold .txBusy))
  /-- R132. -/
  | classify {x y : AxisValue} {btn : Bool} (running : s.halted = false) :
      Answers s (.classify x y btn) (s.answer (.classified (classifyWord (s.directionOf x y) (pressed btn))))
  /-- R151, a byte taken. -/
  | accept {b : Byte} {q : List Byte} (running : s.halted = false) (queued : s.txQ = b :: q) :
      Answers s .txAccept (State.answer { s with txQ := q } (.byte b))
  /-- R151, the link is held. -/
  | acceptHold (running : s.halted = false) (idle : s.txQ = []) : Answers s .txAccept (s.answer (.hold .txEmpty))
  /-- R180. -/
  | calWrite {sel : CalReg} {v : AxisValue} (running : s.halted = false) :
      Answers s (.calWrite sel v) ((s.setCal sel v).answer .done)
  /-- R181. -/
  | halt (running : s.halted = false) : Answers s .halt (State.answer { s with halted := true } .done)
  /-- R182, in every state. -/
  | reset : Answers s .reset (s.resetBlock.answer .done)

theorem exec_calWrite_running {s : State} {sel : CalReg} {v : AxisValue} (h : s.halted = false) :
    exec (.calWrite sel v) s = .next ((s.setCal sel v).answer .done) :=
  whenRunning_running h _

/-- All that SNAP_READ can answer in a running block (R104). -/
theorem exec_snapRead_eq_next {s t : State} {idx : BitVec 7} (hs : s.halted = false) :
    exec (.snapRead idx) s = .next t ↔
      (idx.toNat < s.snapLen ∧ idx.toNat < 99 ∧ ∃ b, s.snap.read idx.toNat = some b ∧ t = s.answer (.byte b)) ∨
      ((s.snapLen ≤ idx.toNat ∨ (idx.toNat < 99 ∧ s.snap.read idx.toNat = none)) ∧ t = s.answerDraw) := by
  rw [show exec (.snapRead idx) s = execSnapRead idx s from rfl, execSnapRead, whenRunning_running hs]
  by_cases hlt : idx.toNat < s.snapLen
  · rw [if_pos hlt, State.answerSnap_eq_next]
    grind
  · rw [if_neg hlt, Host.Outcome.next.injEq]
    grind

/-- A next state of an event is one of those of `Answers`. -/
theorem answers_of_exec {i : Instr} {s t : State} (h : exec i s = .next t) : Answers s i t := by
  by_cases hreset : i = .reset
  · subst hreset
    cases h
    exact .reset
  cases hs : s.halted with
  | true =>
    cases (exec_halted hs hreset).symm.trans h
    exact .stuck hs hreset
  | false =>
    cases i with
    | reset => exact absurd rfl hreset
    | rxByte d =>
      obtain ⟨hs', -⟩ | ⟨-, hc, hcur, rfl⟩ | ⟨-, hc, hcur, rfl⟩ := exec_rxByte_eq_next.mp h
      · exact absurd hs' (by simp [hs])
      · exact .append hs hc hcur
      · exact .complete hs hc hcur
    | statusRead => cases (exec_statusRead_running hs).symm.trans h; exact .status hs
    | snapRead idx =>
      obtain ⟨hlt, hidx, b, hb, rfl⟩ | ⟨hout, rfl⟩ := (exec_snapRead_eq_next hs).mp h
      · exact .snapByte hs hlt hidx hb
      · exact .snapDraw hs hout
    | cmdAck => cases (exec_cmdAck_running hs).symm.trans h; exact .cmdAck hs
    | tick x y btn =>
      by_cases hq : s.txQ = []
      · cases (exec_tick_idle x y btn hs hq).symm.trans h; exact .tick hs hq
      · cases (exec_tick_busy x y btn hs hq).symm.trans h; exact .tickHold hs hq
    | classify x y btn => cases (exec_classify_running hs).symm.trans h; exact .classify hs
    | txAccept =>
      cases hq : s.txQ with
      | nil => cases (exec_txAccept_nil hs hq).symm.trans h; exact .acceptHold hs hq
      | cons b q => cases (exec_txAccept_cons hs hq).symm.trans h; exact .accept hs hq
    | calWrite sel v => cases (exec_calWrite_running hs).symm.trans h; exact .calWrite hs
    | halt => cases (exec_halt_running hs).symm.trans h; exact .halt hs

/-- Each of the next states of `Answers` is the one that the event answers. -/
theorem Answers.exec_eq {i : Instr} {s t : State} (h : Answers s i t) : exec i s = .next t := by
  cases h with
  | stuck hs hreset => exact exec_halted hs hreset
  | append hs hc hcur => exact exec_rxByte_eq_next.mpr (.inr (.inl ⟨hs, hc, hcur, rfl⟩))
  | complete hs hc hcur => exact exec_rxByte_eq_next.mpr (.inr (.inr ⟨hs, hc, hcur, rfl⟩))
  | status hs => exact exec_statusRead_running hs
  | snapByte hs hlt hidx hb => exact (exec_snapRead_eq_next hs).mpr (.inl ⟨hlt, hidx, _, hb, rfl⟩)
  | snapDraw hs hout => exact (exec_snapRead_eq_next hs).mpr (.inr ⟨hout, rfl⟩)
  | cmdAck hs => exact exec_cmdAck_running hs
  | tick hs hq => exact exec_tick_idle _ _ _ hs hq
  | tickHold hs hq => exact exec_tick_busy _ _ _ hs hq
  | classify hs => exact exec_classify_running hs
  | accept hs hq => exact exec_txAccept_cons hs hq
  | acceptHold hs hq => exact exec_txAccept_nil hs hq
  | calWrite hs => exact exec_calWrite_running hs
  | halt hs => exact exec_halt_running hs
  | reset => exact exec_reset s

/-- `Answers` says exactly what an event can do. -/
theorem exec_eq_next {i : Instr} {s t : State} : exec i s = .next t ↔ Answers s i t :=
  ⟨answers_of_exec, Answers.exec_eq⟩

end Sys2Proof.Machine
end

section
/-! PROOFS. The invariant (10_state.md R21 to R30, 30_encoding.md R70): the state after power-on meets it, every step keeps
it, and no step from it stops. -/

namespace Sys2Proof.Machine

open Sys2Proof

/-! ### What each effect of an event does to the invariant -/

/-- An outcome is no part of the block. -/
theorem State.Inv.answer {s : State} (h : s.Inv) (r : Reply) : (s.answer r).Inv := { h with }

/-- Appending a byte that ends no line (R100). -/
theorem State.Inv.append {s : State} (h : s.Inv) {d : Byte} (inside : ¬ s.completes (.rxByte d)) :
    State.Inv { s with buf := s.buf.write s.cursor d, cursor := s.cursor + 1 } := by
  rw [State.completes_rxByte, not_or] at inside
  obtain ⟨hd, hcur⟩ := inside
  have hle := h.cursorLe
  refine { h with cursorLe := ?cursor, bufWf := Memory.wf_write d h.bufWf (by omega), lineBytes := ?line }
  case cursor => change s.cursor + 1 ≤ 98; omega
  case line =>
    intro i hi
    change i < s.cursor + 1 at hi
    by_cases hlast : i = s.cursor
    · exact ⟨d, hlast ▸ Memory.read_write_self _ _ _, hd⟩
    · obtain ⟨b, hb, hterm⟩ := h.lineBytes i (by omega)
      exact ⟨b, (Memory.read_write_other _ _ hlast).trans hb, hterm⟩

/-- What the snapshot holds after a completion: the line, with the new byte behind it (R101). -/
theorem read_completed_snap (s : State) (d : Byte) (a : Nat) :
    (Memory.copyFirst (s.cursor + 1) ((s.buf.write s.cursor d).write (s.cursor + 1) 0x00) s.snap).read a =
      if a = s.cursor then some d else if a < s.cursor then s.buf.read a else s.snap.read a := by
  simp only [Memory.read_copyFirst, Memory.read_write]
  grind

/-- Completing a line (R100, R101). -/
theorem State.Inv.complete {s : State} (h : s.Inv) {d : Byte} (ends : s.completes (.rxByte d)) :
    State.Inv (State.publish { s with
      buf := (s.buf.write s.cursor d).write (s.cursor + 1) 0x00, cursor := s.cursor + 1 }) := by
  rw [State.completes_rxByte] at ends
  have hle := h.cursorLe
  have hbuf : Memory.wf 100 ((s.buf.write s.cursor d).write (s.cursor + 1) 0x00) = true :=
    Memory.wf_write _ (Memory.wf_write _ h.bufWf (by omega)) (by omega)
  refine { h with
    cursorLe := Nat.zero_le _
    bufWf := hbuf
    snapWf := Memory.wf_copyFirst hbuf h.snapWf (Nat.succ_le_succ hle)
    lineBytes := nofun
    snapLenLe := Nat.succ_le_succ hle
    snapBytes := ?bytes
    snapEnd := fun _ => ?ending
    readyLine := fun _ => Nat.succ_pos _
    overrunLine := fun _ => Nat.succ_pos _ }
  case bytes =>
    intro i hi
    change i < s.cursor + 1 at hi
    simp only [State.publish_snap, State.publish_snapLen, read_completed_snap]
    by_cases hlast : i = s.cursor
    · exact ⟨d, if_pos hlast, fun _ => congrArg (· + 1) hlast⟩
    · obtain ⟨b, hb, hterm⟩ := h.lineBytes i (by omega)
      exact ⟨b, by rw [if_neg hlast, if_pos (by omega), hb], fun hb => absurd hb hterm⟩
  case ending =>
    simp only [State.publish_snap, State.publish_snapLen, read_completed_snap, Nat.add_sub_cancel, if_true]
    obtain rfl | hcur := ends
    · exact .inr rfl
    · exact .inl (congrArg (· + 1) hcur)

/-- Filling the gate with the frames of a tick (R150). -/
theorem State.Inv.fillGate {s : State} (h : s.Inv) (d : Direction) (p : Bool) :
    (s.fillGate (s.tickBytes d p) d p).Inv := by
  refine { h with gateBytes := ?_ }
  obtain ⟨sendD, sendB, hp, hbytes⟩ := s.tickBytes_cases d p
  refine ⟨sendB, hp, ?_⟩
  simp only [State.fillGate_txQ, State.fillGate_prevDir, hbytes]
  cases sendD with
  | true => exact List.suffix_rfl
  | false => exact List.suffix_append _ _

/-- Taking the head of the queue (R151). -/
theorem State.Inv.accept {s : State} (h : s.Inv) {b : Byte} {q : List Byte} (queued : s.txQ = b :: q) :
    State.Inv { s with txQ := q } := by
  obtain ⟨p, hp, hsuffix⟩ := h.gateBytes
  exact { h with gateBytes := ⟨p, hp, (queued ▸ List.suffix_cons b q).trans hsuffix⟩ }

/-- Writing a calibration register with a value in width (R180). -/
theorem State.Inv.setCal {s : State} (h : s.Inv) (sel : CalReg) {v : AxisValue} (hv : s.cfg.axisW.admits v = true) :
    (s.setCal sel v).Inv := by
  have hwidth := h.calWidth
  simp only [Bool.and_eq_true] at hwidth
  cases sel <;> exact { h with calWidth := by simp [State.setCal, hv, hwidth] }

/-- RESET, from any state with a legal configuration (R182). -/
theorem State.resetBlock_inv {s : State} (h : s.cfg.wf = true) : s.resetBlock.Inv where
  cfgWf := h
  calWidth := h
  cursorLe := Nat.zero_le _
  bufWf := rfl
  snapWf := rfl
  lineBytes := nofun
  snapLenLe := Nat.zero_le _
  snapBytes := nofun
  snapEnd := nofun
  readyLine := nofun
  overrunLine := nofun
  gateBytes := ⟨false, nofun, List.nil_suffix⟩

/-! ### Every event and every step -/

/-- Every event with its operands in range keeps the invariant. -/
theorem State.Inv.exec {i : Instr} {s t : State} (h : s.Inv) (hi : i.wellFormed s.cfg.axisW = true)
    (hexec : exec i s = .next t) : t.Inv := by
  cases exec_eq_next.mp hexec with
  | stuck | status | snapByte | tickHold | classify | acceptHold => exact h.answer _
  | append _ hc => exact (h.append hc).answer _
  | complete _ hc => exact (h.complete hc).answer _
  | snapDraw => exact { h with }
  | cmdAck => exact { h with readyLine := nofun }
  | tick => exact (h.fillGate _ _).answer _
  | accept _ hq => exact (h.accept hq).answer _
  | calWrite => exact (h.setCal _ hi).answer _
  | halt => exact { h with }
  | reset => exact (State.resetBlock_inv h.cfgWf).answer _

/-- Settles O45: the words and turns of the agents are no part of the block, and a decoded event has its operands in
range. -/
theorem stepKeepsTheInvariant : Obligations.StepKeepsTheInvariant := by
  intro s t h hstep
  obtain ⟨-, rfl⟩ | ⟨a, w, r, -, -, rfl⟩ | ⟨a, w, i, u, -, hdec, hexec, rfl⟩ := step_eq_next hstep
  · exact { h with }
  · exact { h with }
  · have hu : u.Inv := h.exec (encode_of_decode hdec).2 hexec
    exact { hu with }

/-- Settles O44: `State.reset` has the block of a RESET and the default configuration. -/
theorem resetStateMeetsTheInvariant : Obligations.ResetStateMeetsTheInvariant :=
  State.resetBlock_inv (s := State.reset) (by decide)

/-! ### No step stops -/

/-- Every event answers a next state while the cursor and the snapshot's length are in range. -/
theorem exists_exec_eq_next {s : State} (hcur : s.cursor ≤ 98) (hlen : s.snapLen ≤ 99) (i : Instr) :
    ∃ t, exec i s = .next t := by
  by_cases hreset : i = .reset
  · exact hreset ▸ ⟨_, exec_reset s⟩
  cases hs : s.halted with
  | true => exact ⟨_, exec_halted hs hreset⟩
  | false =>
    cases i with
    | reset => exact ⟨_, exec_reset s⟩
    | rxByte d =>
      by_cases hc : s.completes (.rxByte d)
      · exact ⟨_, (Answers.complete hs hc hcur).exec_eq⟩
      · exact ⟨_, (Answers.append hs hc (by omega)).exec_eq⟩
    | statusRead => exact ⟨_, exec_statusRead_running hs⟩
    | snapRead idx =>
      by_cases hlt : idx.toNat < s.snapLen
      · cases hb : s.snap.read idx.toNat with
        | some b => exact ⟨_, (Answers.snapByte hs hlt (by omega) hb).exec_eq⟩
        | none => exact ⟨_, (Answers.snapDraw hs (.inr ⟨by omega, hb⟩)).exec_eq⟩
      · exact ⟨_, (Answers.snapDraw hs (.inl (by omega))).exec_eq⟩
    | cmdAck => exact ⟨_, exec_cmdAck_running hs⟩
    | tick x y btn =>
      by_cases hq : s.txQ = []
      · exact ⟨_, exec_tick_idle x y btn hs hq⟩
      · exact ⟨_, exec_tick_busy x y btn hs hq⟩
    | classify x y btn => exact ⟨_, exec_classify_running hs⟩
    | txAccept =>
      cases hq : s.txQ with
      | nil => exact ⟨_, exec_txAccept_nil hs hq⟩
      | cons b q => exact ⟨_, exec_txAccept_cons hs hq⟩
    | calWrite sel v => exact ⟨_, exec_calWrite_running hs⟩
    | halt => exact ⟨_, exec_halt_running hs⟩

/-- Settles O46: a passed turn and a refused word answer a next state, and an event does so within the invariant. -/
theorem stepNeverStops : Obligations.StepNeverStops := by
  intro s h
  unfold step
  split
  next => exact ⟨_, rfl⟩
  next a w _ =>
    split
    next => exact ⟨_, rfl⟩
    next i _ =>
      obtain ⟨t, ht⟩ := exists_exec_eq_next h.cursorLe h.snapLenLe i
      exact ⟨_, andThen_eq_next.mpr ⟨t, ht, rfl⟩⟩

end Sys2Proof.Machine
end

section
/-! PROOFS. The step and the outcomes (00_scope.md R7, R11, 60_exceptions.md R201, R206 to R209): what a step makes of the
word offered, which events wait, and the codes recorded. -/

namespace Sys2Proof.Machine

open Sys2Proof

/-! ### What no event writes -/

/-- No event writes the configuration, the turns or the words issued (R7; log 1, log 16). -/
theorem exec_frame {i : Instr} {s t : State} (h : exec i s = .next t) :
    t.cfg = s.cfg ∧ t.turns = s.turns ∧ t.inbox = s.inbox := by
  cases exec_eq_next.mp h with
  | calWrite => exact ⟨s.setCal_cfg _ _, s.setCal_turns _ _, s.setCal_inbox _ _⟩
  | _ => exact ⟨rfl, rfl, rfl⟩

/-- No event but RESET clears the refused mark (R31). -/
theorem exec_refused {i : Instr} {s t : State} (hreset : i ≠ .reset) (h : exec i s = .next t) :
    t.refused = s.refused := by
  cases exec_eq_next.mp h with
  | reset => exact absurd rfl hreset
  | calWrite => exact s.setCal_refused _ _
  | _ => rfl

/-! ### The step -/

/-- A word is offered by an agent that has the turn and has issued it. -/
theorem State.offered_of_turns {s : State} {a : Agent} {rest : List Agent} {w : EventWord} {ws : List EventWord}
    (hturns : s.turns = a :: rest) (hinbox : s.inbox.get a = w :: ws) : s.offered = some (a, w) := by
  simp only [State.offered, hturns, hinbox]

theorem State.offered_eq_none {s : State} (h : s.turns = [] ∨ ∃ a rest, s.turns = a :: rest ∧ s.inbox.get a = []) :
    s.offered = none := by
  obtain hturns | ⟨a, rest, hturns, hinbox⟩ := h
  · simp only [State.offered, hturns]
  · simp only [State.offered, hturns, hinbox]

theorem step_of_event {s : State} {a : Agent} {w : EventWord} {i : Instr} (hoffer : s.offered = some (a, w))
    (hdec : decode s.cfg.axisW w = .event i) : step s = andThen (exec i s) fun t => .next (t.endTurn a) := by
  simp only [step, hoffer, hdec]

theorem step_of_illegal {s : State} {a : Agent} {w : EventWord} {r : RefuseReason} (hoffer : s.offered = some (a, w))
    (hdec : decode s.cfg.axisW w = .illegal r) : step s = .next ((s.refuse r w).endTurn a) := by
  simp only [step, hoffer, hdec]

/-- Settles O5: the step of an offered event is the event with its turn ended, and no event touches the turns. -/
theorem stepRunsTheOfferedEvent : Obligations.StepRunsTheOfferedEvent := by
  intro s a rest w ws i hturns hinbox hdec
  refine ⟨?step, ?frame⟩
  case step =>
    rw [step_of_event (State.offered_of_turns hturns hinbox) hdec]
    cases exec i s <;> rfl
  case frame =>
    intro t h
    obtain ⟨-, hturns', hinbox'⟩ := exec_frame h
    exact ⟨hturns'.trans hturns, hinbox'⟩

/-- Settles O6: an illegal word ends its turn with the mark set, and only a RESET clears the mark. -/
theorem refusedWordSetsOnlyTheRefusedMark : Obligations.RefusedWordSetsOnlyTheRefusedMark := by
  refine ⟨?refuse, ?stays⟩
  case refuse =>
    intro s a rest w ws r hturns hinbox hdec
    rw [step_of_illegal (State.offered_of_turns hturns hinbox) hdec]
    simp [State.endTurn, State.refuse, Reply.waits, hturns, hinbox]
  case stays =>
    intro s t hmark hstep
    obtain ⟨-, rfl⟩ | ⟨a, w, r, -, -, rfl⟩ | ⟨a, w, i, u, hoffer, hdec, hexec, rfl⟩ := step_eq_next hstep
    · exact .inl hmark
    · exact .inl rfl
    · by_cases hreset : i = .reset
      · exact .inr ⟨a, w, hoffer, hreset ▸ hdec⟩
      · exact .inl ((exec_refused hreset hexec).trans hmark)

/-- Settles O7: with no word offered the step is the passing of the turn. -/
theorem stepWithoutAnEventPassesTheTurn : Obligations.StepWithoutAnEventPassesTheTurn := by
  intro s h
  simp only [step, State.offered_eq_none h]
  rfl

/-! ### Holds and stuck events -/

/-- An event that waits changes nothing but the outcome recorded (R209). -/
theorem eq_answer_of_waits {i : Instr} {s t : State} (h : exec i s = .next t) (hwaits : t.reply.waits = true) :
    t = s.answer t.reply := by
  cases exec_eq_next.mp h with
  | stuck | tickHold | acceptHold => rfl
  | _ => cases hwaits

/-- Settles O8: a waiting event's state is the old one with its outcome, and the end of the turn leaves the word. -/
theorem waitingEventChangesNothingAndStays : Obligations.WaitingEventChangesNothingAndStays := by
  intro s t a w i hoffer hdec hexec hwaits
  rw [step_of_event hoffer hdec, hexec, andThen_next, State.endTurn, if_pos hwaits, eq_answer_of_waits hexec hwaits]
  rfl

/-- Settles O9: two outcomes of `Answers` are holds. -/
theorem onlyTickAndAcceptHold : Obligations.OnlyTickAndAcceptHold := by
  intro i s t r hexec hhold
  cases exec_eq_next.mp hexec with
  | tickHold hs hq =>
    cases hhold
    exact ⟨hs, .inl ⟨rfl, hq, _, _, _, rfl⟩⟩
  | acceptHold hs hq =>
    cases hhold
    exact ⟨hs, .inr ⟨rfl, hq, rfl⟩⟩
  | _ => cases hhold

/-! ### The configuration -/

theorem step_cfg {s t : State} (h : step s = .next t) : t.cfg = s.cfg := by
  obtain ⟨-, rfl⟩ | ⟨a, w, r, -, -, rfl⟩ | ⟨a, w, i, u, -, -, hexec, rfl⟩ := step_eq_next h
  · rfl
  · rfl
  · exact (exec_frame hexec).1

/-- A run of a machine is its first step and the run after it. -/
theorem run_succ_eq_next {M : Host.Core} {k : Nat} {s t : M.State} (h : M.run (k + 1) s = .next t) :
    ∃ u, M.step s = .next u ∧ M.run k u = .next t := by
  rw [Host.Core.run] at h
  split at h
  next u hu => exact ⟨u, hu, h⟩
  next => cases h
  next => cases h

/-- Settles O11, by induction on the number of steps. -/
theorem configurationIsFixedForARun : Obligations.ConfigurationIsFixedForARun := by
  intro k
  induction k with
  | zero =>
    rintro s t ⟨⟩
    rfl
  | succ k ih =>
    intro s t h
    obtain ⟨u, hstep, hrun⟩ := run_succ_eq_next (M := Sys2Proof.core) h
    exact (ih u t hrun).trans (step_cfg hstep)

/-! ### Outcome codes -/

/-- The code of an event's outcome (R201), in R212's order: the halted check, then the two holds, then no code. -/
theorem code_cases {i : Instr} {s t : State} (h : exec i s = .next t) :
    (t.reply.code = some 16 ∧ s.halted = true ∧ i ≠ .reset) ∨
    (t.reply.code = some 32 ∧ s.halted = false ∧ s.txQ ≠ [] ∧ ∃ x y btn, i = .tick x y btn) ∨
    (t.reply.code = some 33 ∧ s.halted = false ∧ s.txQ = [] ∧ i = .txAccept) ∨
    (t.reply.code = none ∧ (s.halted = true → i = .reset) ∧ ((∃ x y btn, i = .tick x y btn) → s.txQ = []) ∧
      (i = .txAccept → s.txQ ≠ [])) := by
  cases exec_eq_next.mp h with
  | stuck hs hreset => exact .inl ⟨rfl, hs, hreset⟩
  | tickHold hs hq => exact .inr (.inl ⟨rfl, hs, hq, _, _, _, rfl⟩)
  | acceptHold hs hq => exact .inr (.inr (.inl ⟨rfl, hs, hq, rfl⟩))
  | tick hs hq => exact .inr (.inr (.inr ⟨rfl, by simp [hs], fun _ => hq, nofun⟩))
  | accept hs hq => exact .inr (.inr (.inr ⟨rfl, by simp [hs], nofun, fun _ => by simp [hq]⟩))
  | append hs | complete hs | status hs | snapByte hs | snapDraw hs | cmdAck hs | classify hs | calWrite hs | halt hs =>
    exact .inr (.inr (.inr ⟨rfl, by simp [hs], nofun, nofun⟩))
  | reset => exact .inr (.inr (.inr ⟨rfl, fun _ => rfl, nofun, nofun⟩))

/-- Settles O47: a refused word records its reason, and a legal one the code of the case of `code_cases` that it is. -/
theorem stepRecordsTheListedOutcomeCode : Obligations.StepRecordsTheListedOutcomeCode := by
  intro s t a w hoffer hstep
  refine ⟨?illegal, ?legal⟩
  case illegal =>
    intro r hdec
    cases (step_of_illegal hoffer hdec).symm.trans hstep
    refine ⟨rfl, ?_⟩
    cases r <;> simp [RefuseReason.code]
  case legal =>
    intro i hdec
    obtain ⟨u, hexec, ht⟩ := andThen_eq_next.mp ((step_of_event hoffer hdec).symm.trans hstep)
    cases ht
    rw [State.endTurn_reply]
    obtain ⟨hcode, hs, hi⟩ | ⟨hcode, hs, hq, hi⟩ | ⟨hcode, hs, hq, hi⟩ | ⟨hcode, hs, htick, haccept⟩ := code_cases hexec
    · simp [hcode, hs, hi]
    · grind
    · simp [hcode, hs, hq, hi]
    · grind

end Sys2Proof.Machine
end

section
/-! PROOFS. The receive framer's bytes, lines and hand-off (40_framer.md R100 to R108): what a byte does to the two stores,
who writes the framer's elements (R22, R24, R25), and when a signalled line is safe. -/

namespace Sys2Proof.Machine

open Sys2Proof

/-! ### One byte and one line -/

/-- Settles O12: the byte is written at the cursor. -/
theorem rxByteInsideALineOnlyAppends : Obligations.RxByteInsideALineOnlyAppends :=
  fun _ _ hs hcur hd => ⟨_, exec_rxByte_inside hs hcur hd, rfl, fun a => Memory.read_write _ _ a _⟩

/-- Settles O13: the two writes to the buffer and the copy to the snapshot, read back. -/
theorem rxByteCompletesTheLine : Obligations.RxByteCompletesTheLine := by
  intro s d hs hcur hd
  refine ⟨_, exec_rxByte_last hs hcur hd, ?frame, ?buf, read_completed_snap s d⟩
  case frame => simp only [State.publish, State.answer, overrunAfter, Bool.or_comm]
  case buf => exact fun a => by simp only [State.answer_buf, State.publish_buf, Memory.read_write]

/-- Settles O17: the framer refines the wire format. -/
theorem receivedLineBecomesTheSnapshot : Obligations.ReceivedLineBecomesTheSnapshot := by
  intro s l hs hcur hl
  obtain ⟨buf, snap, hrun, hsnap⟩ := receive_line hs hcur hl
  exact ⟨_, hrun, rfl, hsnap⟩

/-- Settles O18: bytes short of a line are in the buffer only. -/
theorem unfinishedLineProducesNothing : Obligations.UnfinishedLineProducesNothing := by
  intro s l hs hcur hlen hl
  obtain ⟨buf, reply, hrun, hbuf⟩ := receive_unfinished hs hcur hlen hl
  exact ⟨_, hrun, rfl, hbuf⟩

/-! ### SNAP_READ -/

/-- Settles O15: inside the line a stored byte is returned, and elsewhere a draw. -/
theorem snapReadReturnsTheSnapshotByteOrADraw : Obligations.SnapReadReturnsTheSnapshotByteOrADraw := by
  intro s idx hs hidx
  refine ⟨?stored, ?drawn⟩
  case stored => exact fun b hlt hb => (Answers.snapByte hs hlt (by omega) hb).exec_eq
  case drawn =>
    intro hout
    exact ⟨s.drawnByte, (Answers.snapDraw hs (hout.imp_right fun hb => ⟨by omega, hb⟩)).exec_eq⟩

/-! ### Who writes the framer's elements -/

/-- What an event other than RX_BYTE and RESET leaves of the framer: its stores and their lengths (R22, R24). -/
theorem exec_keeps_stores {i : Instr} {s t : State} (h : exec i s = .next t) (hreset : i ≠ .reset)
    (hrx : ∀ d, i ≠ .rxByte d) :
    (t.buf = s.buf ∧ t.cursor = s.cursor) ∧ t.snap = s.snap ∧ t.snapLen = s.snapLen := by
  cases exec_eq_next.mp h with
  | append | complete => exact absurd rfl (hrx _)
  | reset => exact absurd rfl hreset
  | calWrite =>
    exact ⟨⟨s.setCal_buf _ _, s.setCal_cursor _ _⟩, s.setCal_snap _ _, s.setCal_snapLen _ _⟩
  | _ => exact ⟨⟨rfl, rfl⟩, rfl, rfl⟩

/-- An event that completes no line leaves the snapshot and its length, unless it is RESET (R24). -/
theorem exec_keeps_snapshot {i : Instr} {s t : State} (h : exec i s = .next t) (hreset : i ≠ .reset)
    (hc : ¬ s.completes i) : t.snap = s.snap ∧ t.snapLen = s.snapLen := by
  by_cases hrx : ∃ d, i = .rxByte d
  · obtain ⟨d, rfl⟩ := hrx
    cases exec_eq_next.mp h with
    | stuck | append => exact ⟨rfl, rfl⟩
    | complete _ hends => exact absurd hends hc
  · exact (exec_keeps_stores h hreset (not_exists.mp hrx)).2

/-- Settles O23: what a byte inside a line and what every other event leaves. -/
theorem snapshotIsWrittenOnlyByACompletion : Obligations.SnapshotIsWrittenOnlyByACompletion :=
  fun _ _ _ h hreset => ⟨exec_keeps_snapshot h hreset, fun hrx => (exec_keeps_stores h hreset hrx).1⟩

/-- All that can happen to `cmd_ready`: a completion sets it, CMD_ACK and RESET clear it, and nothing else moves it (R25). -/
theorem exec_cmdReady {i : Instr} {s t : State} (h : exec i s = .next t) :
    (s.halted = false ∧ s.completes i ∧ t.cmdReady = true) ∨
    ((i = .cmdAck ∨ i = .reset) ∧ t.cmdReady = false) ∨
    ((s.halted = true ∨ ¬ s.completes i ∧ i ≠ .cmdAck) ∧ i ≠ .reset ∧ t.cmdReady = s.cmdReady) := by
  cases exec_eq_next.mp h with
  | stuck hs hreset => exact .inr (.inr ⟨.inl hs, hreset, rfl⟩)
  | complete hs hc => exact .inl ⟨hs, hc, rfl⟩
  | cmdAck => exact .inr (.inl ⟨.inl rfl, rfl⟩)
  | reset => exact .inr (.inl ⟨.inr rfl, rfl⟩)
  | append _ hc => exact .inr (.inr ⟨.inr ⟨hc, nofun⟩, nofun, rfl⟩)
  | calWrite => exact .inr (.inr ⟨.inr ⟨State.not_completes nofun, nofun⟩, nofun, s.setCal_cmdReady _ _⟩)
  | _ => exact .inr (.inr ⟨.inr ⟨State.not_completes nofun, nofun⟩, nofun, rfl⟩)

/-- Settles O21: the four clauses are read off the three cases of `exec_cmdReady`. -/
theorem readyFlagHasOneSetterAndOneClearer : Obligations.ReadyFlagHasOneSetterAndOneClearer := by
  intro i s t h
  obtain ⟨hs, hc, ht⟩ | ⟨hi, ht⟩ | ⟨hquiet, hreset, ht⟩ := exec_cmdReady h
  · have ⟨d, hd, _⟩ := hc
    subst hd
    exact ⟨fun _ _ => hc, fun _ hf => by simp [ht] at hf, fun _ _ => ht, fun _ hi => nomatch hi⟩
  · have hno : ¬ s.completes i := State.not_completes (by rintro d rfl; exact nomatch hi)
    exact ⟨fun _ hf => by simp [ht] at hf, fun _ _ => hi, fun _ hc => absurd hc hno, fun _ _ => ht⟩
  · rw [ht]
    refine ⟨fun hf hr => by simp [hf] at hr, fun hr hf => by simp [hf] at hr, fun hs hc => ?_, fun hs hi => ?_⟩
    · obtain hhalt | ⟨hno, -⟩ := hquiet
      · simp [hs] at hhalt
      · exact absurd hc hno
    · obtain hhalt | ⟨-, hack⟩ := hquiet
      · simp [hs] at hhalt
      · exact absurd hi (by simp [hack, hreset])

/-! ### A signalled line -/

/-- Over events without RESET an overrun mark stays (R26). -/
theorem overrun_of_runEvents {es : List Instr} {s t : State} (h : runEvents es s = .next t)
    (hes : ∀ e ∈ es, e ≠ .reset) (hs : s.overrun = true) : t.overrun = true := by
  induction es generalizing s with
  | nil => cases h; exact hs
  | cons e es ih =>
    obtain ⟨u, hu, hrest⟩ := andThen_eq_next.mp h
    have hmark := overrunMarksACompletionOverAnUnreadLine.1 e s u hu (hes e List.mem_cons_self)
    exact ih hrest (fun e' he' => hes e' (List.mem_cons_of_mem _ he')) (hmark.mpr (.inl hs))

/-- An event other than CMD_ACK and RESET that marks no overrun leaves a signalled line as it was: it completed none. -/
theorem exec_keeps_signalled {i : Instr} {s t : State} (h : exec i s = .next t) (hready : s.cmdReady = true)
    (hack : i ≠ .cmdAck) (hreset : i ≠ .reset) (hover : t.overrun = false) :
    t.cmdReady = true ∧ t.snap = s.snap ∧ t.snapLen = s.snapLen := by
  cases hs : s.halted with
  | true =>
    cases (exec_halted hs hreset).symm.trans h
    exact ⟨hready, rfl, rfl⟩
  | false =>
    have hno : ¬ s.completes i := fun hc => by
      have hmark := (overrunMarksACompletionOverAnUnreadLine.1 i s t h hreset).mpr (.inr ⟨hs, hready, hc⟩)
      simp [hover] at hmark
    refine ⟨?_, exec_keeps_snapshot h hreset hno⟩
    obtain ⟨-, hc, -⟩ | ⟨hi, -⟩ | ⟨-, -, ht⟩ := exec_cmdReady h
    · exact absurd hc hno
    · exact absurd hi (by simp [hack, hreset])
    · exact ht.trans hready

/-- Settles O20, by induction on the events: with no overrun at the end there is none after the first of them. -/
theorem signalledLineStaysUntilAcknowledged : Obligations.SignalledLineStaysUntilAcknowledged := by
  intro es
  induction es with
  | nil =>
    rintro s t ⟨⟩ hready - -
    exact ⟨hready, rfl, rfl⟩
  | cons e es ih =>
    intro s t h hready hes hover
    obtain ⟨u, hu, hrest⟩ := andThen_eq_next.mp h
    obtain ⟨hack, hreset⟩ := hes e List.mem_cons_self
    have hes' : ∀ e' ∈ es, e' ≠ .cmdAck ∧ e' ≠ .reset := fun e' he' => hes e' (List.mem_cons_of_mem _ he')
    have huover : u.overrun = false := Bool.eq_false_of_not_eq_true fun hmark => by
      simp [overrun_of_runEvents hrest (fun e' he' => (hes' e' he').2) hmark] at hover
    obtain ⟨huready, husnap, hulen⟩ := exec_keeps_signalled hu hready hack hreset huover
    obtain ⟨htready, htsnap, htlen⟩ := ih u t hrest huready hes' hover
    exact ⟨htready, htsnap.trans husnap, htlen.trans hulen⟩

/-- Settles O48: each line is received at cursor 0; the flag it finds there is what CMD_ACK makes of it. -/
theorem acknowledgedLineMakesRoomForTheNext : Obligations.AcknowledgedLineMakesRoomForTheNext := by
  intro s l l' hs hcur hready hl hl'
  obtain ⟨buf, snap, hfirst, -⟩ := receive_line hs hcur hl
  obtain ⟨buf₂, snap₂, hacked, hsnap₂⟩ :=
    receive_line (s := { s.afterLine l buf snap with cmdReady := false, reply := .done }) hs rfl hl'
  obtain ⟨buf₃, snap₃, hunread, -⟩ := receive_line (s := s.afterLine l buf snap) hs rfl hl'
  have hover : (s.afterLine l buf snap).overrun = s.overrun := by simp [State.afterLine, hready]
  refine ⟨_, _, _, _, hfirst, rfl, hover, exec_cmdAck_running hs, rfl, hacked, rfl, ?kept, rfl, hsnap₂, hunread,
    Bool.or_true _⟩
  case kept => exact (Bool.or_false _).trans hover

end Sys2Proof.Machine
end

section
/-! PROOFS. The reading events (20_memory.md R56), the gate's queue and its two records (42_transmit_gate.md R150 to R153,
10_state.md R29), and the independence of gate and framer (R110, R156). -/

namespace Sys2Proof.Machine

open Sys2Proof

/-! ### Reads -/

/-- Settles O27: the outcomes of the three events change the outcome recorded, and a draw the count of draws. -/
theorem readsHaveNoSideEffect : Obligations.ReadsHaveNoSideEffect := by
  intro i s t hi h
  obtain rfl | ⟨idx, rfl⟩ | ⟨x, y, btn, rfl⟩ := hi <;> cases exec_eq_next.mp h <;> rfl

/-! ### The queue -/

/-- Settles O30: the queue is tested before the sample is read. -/
theorem tickHoldsWhileBytesAreQueued : Obligations.TickHoldsWhileBytesAreQueued :=
  fun _ x y btn => exec_tick_busy x y btn

/-- Settles O33, by induction on the byte's position: the first TX_ACCEPT takes the head, and the byte is one nearer. -/
theorem linkTakesTheQueuedBytesInOrder : Obligations.LinkTakesTheQueuedBytesInOrder := by
  intro s n b hs hb
  induction n generalizing s with
  | zero =>
    cases hq : s.txQ with
    | nil => simp [hq] at hb
    | cons c q =>
      obtain rfl : c = b := by simpa [hq] using hb
      simp [exec_txAccept_cons hs hq]
  | succ n ih =>
    cases hq : s.txQ with
    | nil => simp [hq] at hb
    | cons c q =>
      rw [List.replicate_succ, runEvents_cons, exec_txAccept_cons hs hq, andThen_next]
      exact ih { s with txQ := q, reply := .byte c } hs (by simpa [hq] using hb)

/-- As many TX_ACCEPTs as there are bytes queued empty the queue. -/
theorem runEvents_drain {s : State} (hs : s.halted = false) :
    ∃ r, runEvents (List.replicate s.txQ.length .txAccept) s = .next { s with txQ := [], reply := r } := by
  cases hlen : s.txQ.length with
  | zero => exact ⟨s.reply, by rw [← List.length_eq_zero_iff.mp hlen]; rfl⟩
  | succ n =>
    have hn : n < s.txQ.length := by omega
    refine ⟨.byte s.txQ[n], ?_⟩
    rw [linkTakesTheQueuedBytesInOrder s n _ hs (List.getElem?_eq_getElem hn), List.drop_of_length_le hlen.le]

/-- The bytes of a sample repeated right after it was recorded: again in LEVEL (R152), none in EDGE (R153). -/
theorem State.tickBytes_repeated {s u : State} {d : Direction} {btn : Bool} (hcfg : u.cfg = s.cfg) (hdir : u.prevDir = d)
    (hpressed : u.prevPressed = pressed btn) :
    u.tickBytes d (pressed btn) = match s.cfg.txTrigger with | .level => s.tickBytes d (pressed btn) | .edge => [] := by
  cases htrigger : s.cfg.txTrigger with
  | level => rw [State.tickBytes_level (hcfg ▸ htrigger), State.tickBytes_level htrigger]
  | edge =>
    rw [State.tickBytes_edge (hcfg ▸ htrigger), hdir, hpressed]
    cases btn <;> simp [pressed]

/-- The block after a tick that returned (R150). -/
def State.ticked (s : State) (x y : AxisValue) (btn : Bool) : State :=
  (s.fillGate (s.tickBytes (s.directionOf x y) (pressed btn)) (s.directionOf x y) (pressed btn)).answer .done

theorem exec_tick_eq_ticked {s : State} (x y : AxisValue) (btn : Bool) (hs : s.halted = false) (hq : s.txQ = []) :
    exec (.tick x y btn) s = .next (s.ticked x y btn) :=
  exec_tick_idle x y btn hs hq

/-- Settles O34: the drain leaves the two records of the first tick, and `tickBytes_repeated` is what the second queues. -/
theorem repeatedSampleSendsAgainOnlyInLevelMode : Obligations.RepeatedSampleSendsAgainOnlyInLevelMode := by
  intro s t x y btn hs hq h
  cases (exec_tick_eq_ticked x y btn hs hq).symm.trans h
  obtain ⟨r, hdrain⟩ := runEvents_drain (s := s.ticked x y btn) hs
  refine ⟨State.ticked { s.ticked x y btn with txQ := [], reply := r } x y btn, ?run, ?bytes⟩
  case run =>
    have hagain := exec_tick_eq_ticked x y btn (s := { s.ticked x y btn with txQ := [], reply := r }) hs rfl
    rw [List.append_assoc, List.singleton_append, runEvents_cons, h, andThen_next, runEvents_append, hdrain, andThen_next,
      runEvents_cons, hagain, andThen_next, runEvents_nil]
  case bytes =>
    exact State.tickBytes_repeated (s := s) (u := { s.ticked x y btn with txQ := [], reply := r })
      (d := s.directionOf x y) rfl rfl rfl

/-! ### The two records -/

/-- Under LEVEL the records are no part of what a tick queues (R152). -/
theorem State.tickBytes_with_records {s : State} (hlevel : s.cfg.txTrigger = .level) (d d' : Direction) (p btn : Bool) :
    State.tickBytes { s with prevDir := d', prevPressed := p } d (pressed btn) = s.tickBytes d (pressed btn) :=
  (State.tickBytes_level (s := { s with prevDir := d', prevPressed := p }) hlevel d btn).trans
    (State.tickBytes_level hlevel d btn).symm

/-- Settles O35: only a tick reads the two records, and under LEVEL its bytes do not depend on them. -/
theorem levelModeIgnoresThePreviousTick : Obligations.LevelModeIgnoresThePreviousTick := by
  intro i s t d p hlevel h
  simp only [exec_eq_next] at h ⊢
  cases h with
  | stuck hs hreset => exact ⟨d, p, .stuck hs hreset⟩
  | append hs hc hcur => exact ⟨d, p, .append hs hc hcur⟩
  | complete hs hc hcur => exact ⟨d, p, .complete hs hc hcur⟩
  | status hs => exact ⟨d, p, .status hs⟩
  | snapByte hs hlt hidx hb => exact ⟨d, p, .snapByte hs hlt hidx hb⟩
  | snapDraw hs hout => exact ⟨d, p, .snapDraw hs hout⟩
  | cmdAck hs => exact ⟨d, p, .cmdAck hs⟩
  | @tick x y btn hs hq =>
    refine ⟨s.directionOf x y, pressed btn, ?_⟩
    rw [← State.tickBytes_with_records hlevel _ d p btn]
    exact .tick hs hq
  | tickHold hs hq => exact ⟨d, p, .tickHold hs hq⟩
  | classify hs => exact ⟨d, p, .classify hs⟩
  | accept hs hq => exact ⟨d, p, .accept hs hq⟩
  | acceptHold hs hq => exact ⟨d, p, .acceptHold hs hq⟩
  | @calWrite sel v hs => exact ⟨d, p, by cases sel <;> exact .calWrite hs⟩
  | halt hs => exact ⟨d, p, .halt hs⟩
  | reset => exact ⟨.neutral, false, .reset⟩

/-- Settles O36: the tick that returns is `ticked`, and no other event but RESET has the records in its effect. -/
theorem everyReturningTickRecordsItsResult : Obligations.EveryReturningTickRecordsItsResult := by
  refine ⟨?records, ?others⟩
  case records =>
    intro s t x y btn h hdone
    obtain ⟨hs, hq⟩ := running_idle_of_tick_done h hdone
    cases (exec_tick_eq_ticked x y btn hs hq).symm.trans h
    exact ⟨rfl, rfl⟩
  case others =>
    intro i s t h hreset htick
    cases exec_eq_next.mp h with
    | tick => exact absurd rfl (htick _ _ _)
    | reset => exact absurd rfl hreset
    | calWrite => exact ⟨s.setCal_prevDir _ _, s.setCal_prevPressed _ _⟩
    | _ => exact ⟨rfl, rfl⟩

/-! ### Gate and framer -/

/-- Settles O37: each outcome of the four events comes from the same constructor of `Answers` whatever the other half
holds, and is the old state there. -/
theorem gateAndFramerAreIndependent : Obligations.GateAndFramerAreIndependent := by
  refine ⟨?gate, ?framer⟩
  case gate =>
    intro i s t buf snap cursor snapLen ready hi h
    rw [exec_eq_next] at h ⊢
    obtain rfl | ⟨x, y, btn, rfl⟩ := hi
    · cases h with
      | stuck hs hreset => exact ⟨.stuck hs hreset, rfl⟩
      | accept hs hq => exact ⟨.accept hs hq, rfl⟩
      | acceptHold hs hq => exact ⟨.acceptHold hs hq, rfl⟩
    · cases h with
      | stuck hs hreset => exact ⟨.stuck hs hreset, rfl⟩
      | tick hs hq => exact ⟨.tick hs hq, rfl⟩
      | tickHold hs hq => exact ⟨.tickHold hs hq, rfl⟩
  case framer =>
    intro i s t q cx cy dz d p hi h
    rw [exec_eq_next] at h ⊢
    obtain rfl | ⟨b, rfl⟩ := hi
    · cases h with
      | stuck hs hreset => exact ⟨.stuck hs hreset, rfl⟩
      | cmdAck hs => exact ⟨.cmdAck hs, rfl⟩
    · cases h with
      | stuck hs hreset => exact ⟨.stuck hs hreset, rfl⟩
      | append hs hc hcur => exact ⟨.append hs hc hcur, rfl⟩
      | complete hs hc hcur => exact ⟨.complete hs hc hcur, rfl⟩

/-- A list of two events runs the one and then the other. -/
theorem runEvents_pair {i j : Instr} {s u t : State} (hi : exec i s = .next u) (hj : exec j u = .next t) :
    runEvents [i, j] s = .next t := by
  rw [runEvents_cons, hi, andThen_next, runEvents_cons, hj, andThen_next, runEvents_nil]

/-- Settles O38: taking the head of the queue changes neither whether the byte ends the line nor what it then does. -/
theorem receiveAndTransmitCommute : Obligations.ReceiveAndTransmitCommute := by
  intro s d hs hcur hq
  obtain ⟨b, q, hq⟩ := List.exists_cons_of_ne_nil hq
  have hsend := exec_txAccept_cons hs hq
  by_cases hc : s.completes (.rxByte d)
  · exact ⟨_, _, runEvents_pair (Answers.complete hs hc hcur).exec_eq (exec_txAccept_cons hs hq),
      runEvents_pair hsend (Answers.complete (s := { s with txQ := q, reply := .byte b }) hs hc hcur).exec_eq, rfl⟩
  · have hcur := Nat.le_succ_of_le hcur
    exact ⟨_, _, runEvents_pair (Answers.append hs hc hcur).exec_eq (exec_txAccept_cons hs hq),
      runEvents_pair hsend (Answers.append (s := { s with txQ := q, reply := .byte b }) hs hc hcur).exec_eq, rfl⟩

end Sys2Proof.Machine
end

section
/-! PROOFS. CAL_WRITE and RESET (43_control.md R180, R182): who writes the calibration registers (R27), and what is left
after a RESET (R216). -/

namespace Sys2Proof.Machine

open Sys2Proof

/-- Settles O39: `setCal`, read for each register. -/
theorem calWriteWritesOneRegister : Obligations.CalWriteWritesOneRegister :=
  fun _ _ hs => ⟨exec_calWrite_running hs, exec_calWrite_running hs, exec_calWrite_running hs⟩

/-- Settles O40: of the outcomes in `Answers`, two have a calibration register in their effect. -/
theorem calibrationIsWrittenOnlyByCalWrite : Obligations.CalibrationIsWrittenOnlyByCalWrite := by
  intro i s t h hreset hcal
  cases exec_eq_next.mp h with
  | calWrite => exact absurd rfl (hcal _ _)
  | reset => exact absurd rfl hreset
  | _ => exact ⟨rfl, rfl, rfl⟩

/-- Settles O42: the stores list no byte, and `resetBlock` has a value for every other element. -/
theorem resetRestoresEveryElement : Obligations.ResetRestoresEveryElement := by
  intro s
  refine ⟨_, exec_reset s, fun _ => ⟨rfl, rfl⟩, ?elements⟩
  case elements => simp

/-- The block after a RESET comes from the model's own fields alone (R182; log 16). -/
theorem exec_reset_congr {s s' : State} (hcfg : s'.cfg = s.cfg) (hdraws : s'.draws = s.draws)
    (hinbox : s'.inbox = s.inbox) (hturns : s'.turns = s.turns) : exec .reset s' = exec .reset s := by
  simp only [exec_reset, State.resetBlock, State.answer, hcfg, hdraws, hinbox, hturns]

/-- Settles O43: the two runs are the same from the RESET on. -/
theorem resetForgetsThePast : Obligations.ResetForgetsThePast := by
  intro s s' es hcfg hdraws hinbox hturns
  rw [runEvents_cons, runEvents_cons, exec_reset_congr hcfg hdraws hinbox hturns]

end Sys2Proof.Machine
end
